-- ==== Sys2Proof/Word.lean ====
section
/-! DEFINITION. The word types of the block (spec/00_scope.md R6, R7: every value is unsigned, bit 0 is least significant). -/

namespace Sys2Proof

/-- One byte: the width of every bus transaction (spec/20_memory.md R62). -/
abbrev Byte := BitVec 8

/-- A 24-bit bus address (`HostAddrWidth`, spec/00_scope.md R6; the chip bus has the same width, spec/20_memory.md R60). -/
abbrev Addr := BitVec 24

/-- A window offset, the 13 low bits of a host address (spec/30_encoding.md R81). -/
abbrev Offset := BitVec 13

end Sys2Proof
end

