-- ==== Sys2Proof/Config.lean ====
section
/-! DEFINITION. The implementation parameters of spec/00_scope.md R6. A parameter to which R6 gives a value has it here as its
value (notes/assumptions/9.md); a parameter R6 leaves OPEN, and every byte the out-of-scope cartridge collaborator answers, is an
opaque constant: nothing can evaluate it, so a statement holds whatever it is (notes/assumptions/7.md, 8.md). -/

namespace Sys2Proof

/-- The two readings of a suspend with a zero cycle count (spec/43_dma_cache.md R213). -/
inductive SuspendZero where
  | indefinite
  | immediate
deriving DecidableEq, Repr

/-- What an Engine miss with both banks locked ends in (spec/43_dma_cache.md R210). The spec's value is `stuck`; R8 says that
decision D18 may also give a refusal, which is `refuse` here. -/
inductive LockedMissPolicy where
  | stuck
  | refuse
deriving DecidableEq, Repr

namespace Config

/-- `ScratchSize`: 3072 bytes, valid index 0 to 3071 (R6). -/
def scratchSize : Nat := 3072

/-- `CachePageBytes` (R6, spec/43_dma_cache.md R206). -/
def cachePageBytes : Nat := 512

/-- `SuspendUnit`: 32 cycles for each address step (R6). -/
def suspendUnit : Nat := 32

/-- `InChipWindow(addr) = (addr[23:16] AND 0x40) = 0x00 ∧ addr[15:13] = 0b011`, the default of spec/30_encoding.md R81. -/
def inChipWindow (a : Addr) : Bool :=
  (a.extractLsb' 16 8 &&& 0x40#8) == 0#8 && a.extractLsb' 13 3 == 0b011#3

/-- `SuspendZero`, default `Indefinite` (R6, spec/43_dma_cache.md R213). -/
def suspendZero : SuspendZero := .indefinite

/-- `LockedMissPolicy`, default `Stuck` (R6, spec/43_dma_cache.md R210). -/
def lockedMissPolicy : LockedMissPolicy := .stuck

/-- `IsCartRAM(addr)`: OPEN (R6, decision D25). -/
opaque isCartRAM : Addr → Bool

/-- `IsCartROM(addr)`: OPEN (R6, decision D25). -/
opaque isCartROM : Addr → Bool

/-- `SystemResetReinit`: OPEN (R6, spec/70_reset_and_hazards.md R282). -/
opaque systemResetReinit : Bool

/-- FREE VALUE: the byte the cartridge collaborator answers at its `n`-th undetermined read, of address `a`: "any value, supplied
by the out-of-scope cartridge collaborator" (spec/93_implementation_defined.md U9, spec/20_memory.md R70). -/
opaque cartByte : Nat → Addr → Byte

end Config

end Sys2Proof
end

