-- ==== Sys2Proof/Syntax.lean ====
section
/-! DEFINITION. The bus transactions, Controller steps and Engine events of the block as syntax: one constructor for each row of
spec/opcode_table.json (spec/00_scope.md R2, spec/30_encoding.md R80). A window row's constructor carries the bits its row leaves
free: the access (debug or not, and which bank of the host bus), the low offset bits its mask frees, and a write's data byte. -/

namespace Sys2Proof

/-- Which side issued an access (spec/00_scope.md R9). -/
inductive Ctx where
  | host
  | chip
deriving DecidableEq, Repr

/-- One of the two lockable cache banks (spec/00_scope.md R6, `CacheBanks`). -/
inductive Bank where
  | b0
  | b1
deriving DecidableEq, Repr

/-- The part of a window transaction that no row of the table decodes: `dbg` (spec/30_encoding.md R80) and the bank byte
`addr[23:16]` of the host address. -/
structure Access where
  dbg  : Bool
  bank : Byte
deriving DecidableEq, Repr

/-- The operands of ENG-BUS: a read of an address, or a write of a byte to it (spec/44_run_state.md R248). -/
inductive BusAccess where
  | read  (addr : Addr)
  | write (addr : Addr) (d : Byte)
deriving DecidableEq, Repr

/-- The formats of spec/30_encoding.md R80: WIN, ROM-R, SPEED, STEP, EVENT. Each is a port of its own: nothing in the bits of a
transaction says which it is (notes/assumptions/1.md). -/
inductive Port where
  | window
  | rom
  | speed
  | step
  | event
deriving DecidableEq, Repr

/-- A transaction as it arrives: the port it arrives at, and its bytes, the first one first (notes/assumptions/1.md). -/
structure Txn where
  port  : Port
  bytes : List Byte
deriving DecidableEq, Repr

/-- Why a transaction's bytes are no transaction of the block (notes/assumptions/18.md). -/
inductive DecodeError where
  | wrongLength
  | reservedBits
  | notInChipWindow
  | unknownKind
deriving DecidableEq, Repr

/-- One constructor for each row of spec/opcode_table.json, in the table's order. -/
inductive Instr where
  | rdScratch0000 (a : Access) (i : BitVec 11)
  | rdScratch0800 (a : Access) (i : BitVec 10)
  | rdScratchOor (a : Access) (k : BitVec 10)
  | rdScratch1000 (a : Access) (i : BitVec 11)
  | rdScratch1800 (a : Access) (i : BitVec 10)
  | rdUnmapped1C00 (a : Access) (k : BitVec 9)
  | rdUnmapped1E00 (a : Access) (k : BitVec 8)
  | rdUnmapped1F00 (a : Access) (k : BitVec 6)
  | rdDmasrcL (a : Access)
  | rdDmasrcM (a : Access)
  | rdDmasrcH (a : Access)
  | rdDmalenL (a : Access)
  | rdDmalenH (a : Access)
  | rdDmatgtL (a : Access)
  | rdDmatgtM (a : Access)
  | rdDmatgtH (a : Access)
  | rdCpreload (a : Access)
  | rdProgofsL (a : Access)
  | rdProgofsM (a : Access)
  | rdProgofsH (a : Access)
  | rdCachelock (a : Access)
  | rdPageL (a : Access)
  | rdPageH (a : Access)
  | rdPc (a : Access)
  | rdSpeed (a : Access)
  | rdR1F51 (a : Access)
  | rdR1F52 (a : Access)
  | rdStatus1F53 (a : Access)
  | rdStatus1F54 (a : Access)
  | rdStatus1F55 (a : Access)
  | rdStatus1F56 (a : Access)
  | rdStatus1F57 (a : Access)
  | rdStatus1F58 (a : Access)
  | rdStatus1F59 (a : Access)
  | rdStatus1F5A (a : Access)
  | rdStatus1F5B (a : Access)
  | rdStatus1F5C (a : Access)
  | rdStatus1F5D (a : Access)
  | rdStatus1F5E (a : Access)
  | rdStatus1F5F (a : Access)
  | rdVector (a : Access) (vi : BitVec 5)
  | rdGprA0 (a : Access) (m : BitVec 5)
  | rdGprA1 (a : Access) (m : BitVec 4)
  | rdUnmapped1FB0 (a : Access) (k : BitVec 4)
  | rdGprB0 (a : Access) (m : BitVec 5)
  | rdGprB1 (a : Access) (m : BitVec 4)
  | rdUnmapped1FF0 (a : Access) (k : BitVec 4)
  | wrScratch0000 (a : Access) (i : BitVec 11) (d : Byte)
  | wrScratch0800 (a : Access) (i : BitVec 10) (d : Byte)
  | wrScratchOor (a : Access) (k : BitVec 10) (d : Byte)
  | wrScratch1000 (a : Access) (i : BitVec 11) (d : Byte)
  | wrScratch1800 (a : Access) (i : BitVec 10) (d : Byte)
  | wrUnmapped1C00 (a : Access) (k : BitVec 9) (d : Byte)
  | wrUnmapped1E00 (a : Access) (k : BitVec 8) (d : Byte)
  | wrUnmapped1F00 (a : Access) (k : BitVec 6) (d : Byte)
  | wrDmasrcL (a : Access) (d : Byte)
  | wrDmasrcM (a : Access) (d : Byte)
  | wrDmasrcH (a : Access) (d : Byte)
  | wrDmalenL (a : Access) (d : Byte)
  | wrDmalenH (a : Access) (d : Byte)
  | wrDmatgtL (a : Access) (d : Byte)
  | wrDmatgtM (a : Access) (d : Byte)
  | wrDmatgtH (a : Access) (d : Byte)
  | wrCpreload (a : Access) (d : Byte)
  | wrProgofsL (a : Access) (d : Byte)
  | wrProgofsM (a : Access) (d : Byte)
  | wrProgofsH (a : Access) (d : Byte)
  | wrCachelock (a : Access) (d : Byte)
  | wrPageL (a : Access) (d : Byte)
  | wrPageH (a : Access) (d : Byte)
  | wrPc (a : Access) (d : Byte)
  | wrSpeed (a : Access) (d : Byte)
  | wrR1F51 (a : Access) (d : Byte)
  | wrR1F52 (a : Access) (d : Byte)
  | wrHalt (a : Access) (d : Byte)
  | wrNop1F54 (a : Access) (d : Byte)
  | wrSuspend0 (a : Access) (d : Byte)
  | wrSuspend1 (a : Access) (d : Byte)
  | wrSuspend2 (a : Access) (d : Byte)
  | wrSuspend3 (a : Access) (d : Byte)
  | wrSuspend4 (a : Access) (d : Byte)
  | wrSuspend5 (a : Access) (d : Byte)
  | wrSuspend6 (a : Access) (d : Byte)
  | wrSuspend7 (a : Access) (d : Byte)
  | wrUnsuspend (a : Access) (d : Byte)
  | wrNop1F5E (a : Access) (d : Byte)
  | wrNop1F5F (a : Access) (d : Byte)
  | wrVector (a : Access) (vi : BitVec 5) (d : Byte)
  | wrGprA0 (a : Access) (m : BitVec 5) (d : Byte)
  | wrGprA1 (a : Access) (m : BitVec 4) (d : Byte)
  | wrUnmapped1FB0 (a : Access) (k : BitVec 4) (d : Byte)
  | wrGprB0 (a : Access) (m : BitVec 5) (d : Byte)
  | wrGprB1 (a : Access) (m : BitVec 4) (d : Byte)
  | wrUnmapped1FF0 (a : Access) (k : BitVec 4) (d : Byte)
  | romRead (ctx : Ctx) (addr : Addr)
  | speedQuery (addr : Addr)
  | dmaStart
  | dmaByte
  | dmaDone
  | cloadByte
  | cloadDone
  | suspExpire
  | engHalt
  | engGpr (i : BitVec 4) (v : BitVec 24)
  | engFill (p : BitVec 15)
  | engPage (b : Bank)
  | engBus (acc : BusAccess)
deriving DecidableEq, Repr

end Sys2Proof
end

