-- ==== Sys2Proof/WellFormed.lean ====
section
/-! DEFINITION. Which terms of `Instr` are transactions of the block: a window transaction's host address lies in the chip window
(spec/30_encoding.md R80, R81; spec/40_bus_dispatch.md R100: an address outside it never reaches the block). -/

namespace Sys2Proof

/-- The host address of window offset `o` in bank `bank`. The bits `addr[15:13]` are those of the default window of
spec/30_encoding.md R81 (notes/assumptions/11.md). -/
def windowAddr (bank : Byte) (o : Offset) : Addr := bank ++ 0b011#3 ++ o

/-- `InChipWindow` of the access's addresses; the offset does not matter to it (spec/30_encoding.md R81). -/
def Access.wellFormed (a : Access) : Bool := Config.inChipWindow (windowAddr a.bank 0)

/-- The access a window transaction carries, and none for the other formats. -/
def Instr.access? : Instr → Option Access
  | .rdScratch0000 a _ | .rdScratch0800 a _ | .rdScratchOor a _ | .rdScratch1000 a _
  | .rdScratch1800 a _ | .rdUnmapped1C00 a _ | .rdUnmapped1E00 a _ | .rdUnmapped1F00 a _
  | .rdDmasrcL a | .rdDmasrcM a | .rdDmasrcH a | .rdDmalenL a
  | .rdDmalenH a | .rdDmatgtL a | .rdDmatgtM a | .rdDmatgtH a
  | .rdCpreload a | .rdProgofsL a | .rdProgofsM a | .rdProgofsH a
  | .rdCachelock a | .rdPageL a | .rdPageH a | .rdPc a
  | .rdSpeed a | .rdR1F51 a | .rdR1F52 a | .rdStatus1F53 a
  | .rdStatus1F54 a | .rdStatus1F55 a | .rdStatus1F56 a | .rdStatus1F57 a
  | .rdStatus1F58 a | .rdStatus1F59 a | .rdStatus1F5A a | .rdStatus1F5B a
  | .rdStatus1F5C a | .rdStatus1F5D a | .rdStatus1F5E a | .rdStatus1F5F a
  | .rdVector a _ | .rdGprA0 a _ | .rdGprA1 a _ | .rdUnmapped1FB0 a _
  | .rdGprB0 a _ | .rdGprB1 a _ | .rdUnmapped1FF0 a _ | .wrScratch0000 a _ _
  | .wrScratch0800 a _ _ | .wrScratchOor a _ _ | .wrScratch1000 a _ _ | .wrScratch1800 a _ _
  | .wrUnmapped1C00 a _ _ | .wrUnmapped1E00 a _ _ | .wrUnmapped1F00 a _ _ | .wrDmasrcL a _
  | .wrDmasrcM a _ | .wrDmasrcH a _ | .wrDmalenL a _ | .wrDmalenH a _
  | .wrDmatgtL a _ | .wrDmatgtM a _ | .wrDmatgtH a _ | .wrCpreload a _
  | .wrProgofsL a _ | .wrProgofsM a _ | .wrProgofsH a _ | .wrCachelock a _
  | .wrPageL a _ | .wrPageH a _ | .wrPc a _ | .wrSpeed a _
  | .wrR1F51 a _ | .wrR1F52 a _ | .wrHalt a _ | .wrNop1F54 a _
  | .wrSuspend0 a _ | .wrSuspend1 a _ | .wrSuspend2 a _ | .wrSuspend3 a _
  | .wrSuspend4 a _ | .wrSuspend5 a _ | .wrSuspend6 a _ | .wrSuspend7 a _
  | .wrUnsuspend a _ | .wrNop1F5E a _ | .wrNop1F5F a _ | .wrVector a _ _
  | .wrGprA0 a _ _ | .wrGprA1 a _ _ | .wrUnmapped1FB0 a _ _ | .wrGprB0 a _ _
  | .wrGprB1 a _ _ | .wrUnmapped1FF0 a _ _ => some a
  | .romRead _ _ | .speedQuery _ | .dmaStart | .dmaByte | .dmaDone | .cloadByte | .cloadDone
  | .suspExpire | .engHalt | .engGpr _ _ | .engFill _ | .engPage _ | .engBus _ => none

/-- A window transaction is well formed when its address is in the chip window; the other formats admit every operand
(spec/30_encoding.md R80). -/
def Instr.wellFormed (i : Instr) : Bool :=
  match i.access? with
  | some a => a.wellFormed
  | none => true

end Sys2Proof
end

