-- ==== Sys2Proof/Decode.lean ====
section
/-! DEFINITION. The decoder of the five formats of spec/30_encoding.md R80, total on any bytes and rejecting by name; then the
encoder, written from the same rows; then the table itself as rows of mask and match. The window key is the 15-bit `(dbg, W, o)` of
R80, two bytes, the low one first; the bank byte and a write's data byte follow it. That layout, and the layouts of the other
ports, are notes/assumptions/1.md. -/

namespace Sys2Proof

/-! ## Bit fields and bytes -/

/-- Three bytes, the low one first, as a 24-bit value (little-endian slots, spec/20_memory.md R61). -/
def join24 (b0 b1 b2 : Byte) : BitVec 24 := b2 ++ b1 ++ b0

/-- The three bytes of a 24-bit value, the low one first. -/
def bytes24 (v : BitVec 24) : List Byte := [v.extractLsb' 0 8, v.extractLsb' 8 8, v.extractLsb' 16 8]

/-- Two bytes, the low one first, as a 16-bit value. -/
def join16 (b0 b1 : Byte) : BitVec 16 := b1 ++ b0

/-- The two bytes of a 16-bit value, the low one first. -/
def bytes16 (v : BitVec 16) : List Byte := [v.extractLsb' 0 8, v.extractLsb' 8 8]

/-- The window key `(dbg, W, o)` of spec/30_encoding.md R80: bit 14 dbg, bit 13 W, bits 12:0 the offset, and bit 15 zero. -/
def windowKey (dbg w : Bool) (o : Offset) : BitVec 16 := 0#1 ++ BitVec.ofBool dbg ++ BitVec.ofBool w ++ o

/-- `Bank` as its number, one bit. -/
def Bank.bit : Bank → Bool
  | .b0 => false
  | .b1 => true

/-- The bank a bit names (spec/10_state.md R26: bit 0 is bank 0). -/
def Bank.ofBit : Bool → Bank
  | false => .b0
  | true => .b1

/-! ## The decoder -/

/-- The register block, offsets 0x1F40 to 0x1F5F, by the low five bits of the offset (R84, the read column). -/
def decodeReadRegister (a : Access) (r : BitVec 5) : Instr :=
  match r.toNat with
  | 0 => .rdDmasrcL a
  | 1 => .rdDmasrcM a
  | 2 => .rdDmasrcH a
  | 3 => .rdDmalenL a
  | 4 => .rdDmalenH a
  | 5 => .rdDmatgtL a
  | 6 => .rdDmatgtM a
  | 7 => .rdDmatgtH a
  | 8 => .rdCpreload a
  | 9 => .rdProgofsL a
  | 10 => .rdProgofsM a
  | 11 => .rdProgofsH a
  | 12 => .rdCachelock a
  | 13 => .rdPageL a
  | 14 => .rdPageH a
  | 15 => .rdPc a
  | 16 => .rdSpeed a
  | 17 => .rdR1F51 a
  | 18 => .rdR1F52 a
  | 19 => .rdStatus1F53 a
  | 20 => .rdStatus1F54 a
  | 21 => .rdStatus1F55 a
  | 22 => .rdStatus1F56 a
  | 23 => .rdStatus1F57 a
  | 24 => .rdStatus1F58 a
  | 25 => .rdStatus1F59 a
  | 26 => .rdStatus1F5A a
  | 27 => .rdStatus1F5B a
  | 28 => .rdStatus1F5C a
  | 29 => .rdStatus1F5D a
  | 30 => .rdStatus1F5E a
  | _  => .rdStatus1F5F a

/-- Read transactions by window offset: scratch space and its out-of-range band (R82), then control space (R83), the
unmapped default last (R89). -/
def decodeRead (a : Access) (o : Offset) : Instr :=
  let n := o.toNat
  if n < 0x0800 then .rdScratch0000 a (o.extractLsb' 0 11)
  else if n < 0x0C00 then .rdScratch0800 a (o.extractLsb' 0 10)
  else if n < 0x1000 then .rdScratchOor a (o.extractLsb' 0 10)
  else if n < 0x1800 then .rdScratch1000 a (o.extractLsb' 0 11)
  else if n < 0x1C00 then .rdScratch1800 a (o.extractLsb' 0 10)
  else if n < 0x1E00 then .rdUnmapped1C00 a (o.extractLsb' 0 9)
  else if n < 0x1F00 then .rdUnmapped1E00 a (o.extractLsb' 0 8)
  else if n < 0x1F40 then .rdUnmapped1F00 a (o.extractLsb' 0 6)
  else if n < 0x1F60 then decodeReadRegister a (o.extractLsb' 0 5)
  else if n < 0x1F80 then .rdVector a (o.extractLsb' 0 5)
  else if n < 0x1FA0 then .rdGprA0 a (o.extractLsb' 0 5)
  else if n < 0x1FB0 then .rdGprA1 a (o.extractLsb' 0 4)
  else if n < 0x1FC0 then .rdUnmapped1FB0 a (o.extractLsb' 0 4)
  else if n < 0x1FE0 then .rdGprB0 a (o.extractLsb' 0 5)
  else if n < 0x1FF0 then .rdGprB1 a (o.extractLsb' 0 4)
  else .rdUnmapped1FF0 a (o.extractLsb' 0 4)

/-- The register block, offsets 0x1F40 to 0x1F5F, by the low five bits of the offset (R84, the write column). -/
def decodeWriteRegister (a : Access) (r : BitVec 5) (d : Byte) : Instr :=
  match r.toNat with
  | 0 => .wrDmasrcL a d
  | 1 => .wrDmasrcM a d
  | 2 => .wrDmasrcH a d
  | 3 => .wrDmalenL a d
  | 4 => .wrDmalenH a d
  | 5 => .wrDmatgtL a d
  | 6 => .wrDmatgtM a d
  | 7 => .wrDmatgtH a d
  | 8 => .wrCpreload a d
  | 9 => .wrProgofsL a d
  | 10 => .wrProgofsM a d
  | 11 => .wrProgofsH a d
  | 12 => .wrCachelock a d
  | 13 => .wrPageL a d
  | 14 => .wrPageH a d
  | 15 => .wrPc a d
  | 16 => .wrSpeed a d
  | 17 => .wrR1F51 a d
  | 18 => .wrR1F52 a d
  | 19 => .wrHalt a d
  | 20 => .wrNop1F54 a d
  | 21 => .wrSuspend0 a d
  | 22 => .wrSuspend1 a d
  | 23 => .wrSuspend2 a d
  | 24 => .wrSuspend3 a d
  | 25 => .wrSuspend4 a d
  | 26 => .wrSuspend5 a d
  | 27 => .wrSuspend6 a d
  | 28 => .wrSuspend7 a d
  | 29 => .wrUnsuspend a d
  | 30 => .wrNop1F5E a d
  | _  => .wrNop1F5F a d

/-- Write transactions by window offset: scratch space and its out-of-range band (R82), then control space (R83), the
unmapped default last (R89). -/
def decodeWrite (a : Access) (o : Offset) (d : Byte) : Instr :=
  let n := o.toNat
  if n < 0x0800 then .wrScratch0000 a (o.extractLsb' 0 11) d
  else if n < 0x0C00 then .wrScratch0800 a (o.extractLsb' 0 10) d
  else if n < 0x1000 then .wrScratchOor a (o.extractLsb' 0 10) d
  else if n < 0x1800 then .wrScratch1000 a (o.extractLsb' 0 11) d
  else if n < 0x1C00 then .wrScratch1800 a (o.extractLsb' 0 10) d
  else if n < 0x1E00 then .wrUnmapped1C00 a (o.extractLsb' 0 9) d
  else if n < 0x1F00 then .wrUnmapped1E00 a (o.extractLsb' 0 8) d
  else if n < 0x1F40 then .wrUnmapped1F00 a (o.extractLsb' 0 6) d
  else if n < 0x1F60 then decodeWriteRegister a (o.extractLsb' 0 5) d
  else if n < 0x1F80 then .wrVector a (o.extractLsb' 0 5) d
  else if n < 0x1FA0 then .wrGprA0 a (o.extractLsb' 0 5) d
  else if n < 0x1FB0 then .wrGprA1 a (o.extractLsb' 0 4) d
  else if n < 0x1FC0 then .wrUnmapped1FB0 a (o.extractLsb' 0 4) d
  else if n < 0x1FE0 then .wrGprB0 a (o.extractLsb' 0 5) d
  else if n < 0x1FF0 then .wrGprB1 a (o.extractLsb' 0 4) d
  else .wrUnmapped1FF0 a (o.extractLsb' 0 4) d

/-- A window transaction from its key, bank byte and, for a write, data byte. -/
def decodeWindow (key : BitVec 16) (bank : Byte) (data : Option Byte) : Except DecodeError Instr :=
  let a : Access := { dbg := key.getLsbD 14, bank := bank }
  let o : Offset := key.extractLsb' 0 13
  if key.getLsbD 15 then .error .reservedBits
  else if !a.wellFormed then .error .notInChipWindow
  else
    match key.getLsbD 13, data with
    | false, none => .ok (decodeRead a o)
    | true, some d => .ok (decodeWrite a o d)
    | _, _ => .error .wrongLength

/-- A one-bit operand held in a byte whose other bits are reserved. -/
def decodeBit (b : Byte) (f : Bool → Instr) : Except DecodeError Instr :=
  if b = 0 then .ok (f false) else if b = 1 then .ok (f true) else .error .reservedBits

/-- A ROM-port read: the address, then `ctx` (0 Host, 1 Chip). -/
def decodeRom : List Byte → Except DecodeError Instr
  | [a0, a1, a2, c] => decodeBit c fun b => .romRead (if b then .chip else .host) (join24 a0 a1 a2)
  | _ => .error .wrongLength

/-- A speed query: the address. -/
def decodeSpeed : List Byte → Except DecodeError Instr
  | [a0, a1, a2] => .ok (.speedQuery (join24 a0 a1 a2))
  | _ => .error .wrongLength

/-- A Controller step by its kind number (spec/30_encoding.md R80). -/
def decodeStep : List Byte → Except DecodeError Instr
  | [k] =>
    if k = 0 then .ok .dmaStart
    else if k = 1 then .ok .dmaByte
    else if k = 2 then .ok .dmaDone
    else if k = 3 then .ok .cloadByte
    else if k = 4 then .ok .cloadDone
    else if k = 5 then .ok .suspExpire
    else .error .unknownKind
  | _ => .error .wrongLength

/-- ENG-GPR's register number is four bits, ENG-FILL's page fifteen: the bits above them are reserved. -/
def decodeEngGpr (i v0 v1 v2 : Byte) : Except DecodeError Instr :=
  if i.extractLsb' 4 4 = 0 then .ok (.engGpr (i.extractLsb' 0 4) (join24 v0 v1 v2)) else .error .reservedBits

def decodeEngFill (p0 p1 : Byte) : Except DecodeError Instr :=
  if p1.getLsbD 7 then .error .reservedBits else .ok (.engFill ((join16 p0 p1).extractLsb' 0 15))

/-- ENG-BUS: `W`, the address, and for a write the data byte. -/
def decodeEngBus : List Byte → Except DecodeError Instr
  | [w, a0, a1, a2] => if w = 0 then .ok (.engBus (.read (join24 a0 a1 a2))) else .error .wrongLength
  | [w, a0, a1, a2, d] => if w = 1 then .ok (.engBus (.write (join24 a0 a1 a2) d)) else .error .wrongLength
  | _ => .error .wrongLength

/-- An Engine event: its kind number (spec/30_encoding.md R80), then its operands. -/
def decodeEvent : List Byte → Except DecodeError Instr
  | [] => .error .wrongLength
  | k :: rest =>
    if k = 0 then (match rest with | [] => .ok .engHalt | _ => .error .wrongLength)
    else if k = 1 then (match rest with | [i, v0, v1, v2] => decodeEngGpr i v0 v1 v2 | _ => .error .wrongLength)
    else if k = 2 then (match rest with | [p0, p1] => decodeEngFill p0 p1 | _ => .error .wrongLength)
    else if k = 3 then (match rest with | [b] => decodeBit b fun x => .engPage (Bank.ofBit x) | _ => .error .wrongLength)
    else if k = 4 then decodeEngBus rest
    else .error .unknownKind

/-- The transaction the bytes at a port stand for, or the name of what is wrong with them. -/
def decode (t : Txn) : Except DecodeError Instr :=
  match t.port with
  | .window =>
    match t.bytes with
    | [k0, k1, bank] => decodeWindow (join16 k0 k1) bank none
    | [k0, k1, bank, d] => decodeWindow (join16 k0 k1) bank (some d)
    | _ => .error .wrongLength
  | .rom => decodeRom t.bytes
  | .speed => decodeSpeed t.bytes
  | .step => decodeStep t.bytes
  | .event => decodeEvent t.bytes

/-! ## The encoder -/

/-- A window read of offset `o`. -/
def encodeRead (a : Access) (o : Offset) : Txn :=
  { port := .window, bytes := bytes16 (windowKey a.dbg false o) ++ [a.bank] }

/-- A window write of `d` to offset `o`. -/
def encodeWrite (a : Access) (o : Offset) (d : Byte) : Txn :=
  { port := .window, bytes := bytes16 (windowKey a.dbg true o) ++ [a.bank, d] }

/-- The words of a transaction: a window row's fixed offset bits, then the bits its mask frees (spec/opcode_table.json). -/
def encode : Instr → Txn
  | .rdScratch0000 a k => encodeRead a (0b00#2 ++ k)
  | .rdScratch0800 a k => encodeRead a (0b010#3 ++ k)
  | .rdScratchOor a k => encodeRead a (0b011#3 ++ k)
  | .rdScratch1000 a k => encodeRead a (0b10#2 ++ k)
  | .rdScratch1800 a k => encodeRead a (0b110#3 ++ k)
  | .rdUnmapped1C00 a k => encodeRead a (0b1110#4 ++ k)
  | .rdUnmapped1E00 a k => encodeRead a (0b11110#5 ++ k)
  | .rdUnmapped1F00 a k => encodeRead a (0b1111100#7 ++ k)
  | .rdDmasrcL a => encodeRead a 0x1F40#13
  | .rdDmasrcM a => encodeRead a 0x1F41#13
  | .rdDmasrcH a => encodeRead a 0x1F42#13
  | .rdDmalenL a => encodeRead a 0x1F43#13
  | .rdDmalenH a => encodeRead a 0x1F44#13
  | .rdDmatgtL a => encodeRead a 0x1F45#13
  | .rdDmatgtM a => encodeRead a 0x1F46#13
  | .rdDmatgtH a => encodeRead a 0x1F47#13
  | .rdCpreload a => encodeRead a 0x1F48#13
  | .rdProgofsL a => encodeRead a 0x1F49#13
  | .rdProgofsM a => encodeRead a 0x1F4A#13
  | .rdProgofsH a => encodeRead a 0x1F4B#13
  | .rdCachelock a => encodeRead a 0x1F4C#13
  | .rdPageL a => encodeRead a 0x1F4D#13
  | .rdPageH a => encodeRead a 0x1F4E#13
  | .rdPc a => encodeRead a 0x1F4F#13
  | .rdSpeed a => encodeRead a 0x1F50#13
  | .rdR1F51 a => encodeRead a 0x1F51#13
  | .rdR1F52 a => encodeRead a 0x1F52#13
  | .rdStatus1F53 a => encodeRead a 0x1F53#13
  | .rdStatus1F54 a => encodeRead a 0x1F54#13
  | .rdStatus1F55 a => encodeRead a 0x1F55#13
  | .rdStatus1F56 a => encodeRead a 0x1F56#13
  | .rdStatus1F57 a => encodeRead a 0x1F57#13
  | .rdStatus1F58 a => encodeRead a 0x1F58#13
  | .rdStatus1F59 a => encodeRead a 0x1F59#13
  | .rdStatus1F5A a => encodeRead a 0x1F5A#13
  | .rdStatus1F5B a => encodeRead a 0x1F5B#13
  | .rdStatus1F5C a => encodeRead a 0x1F5C#13
  | .rdStatus1F5D a => encodeRead a 0x1F5D#13
  | .rdStatus1F5E a => encodeRead a 0x1F5E#13
  | .rdStatus1F5F a => encodeRead a 0x1F5F#13
  | .rdVector a k => encodeRead a (0b11111011#8 ++ k)
  | .rdGprA0 a k => encodeRead a (0b11111100#8 ++ k)
  | .rdGprA1 a k => encodeRead a (0b111111010#9 ++ k)
  | .rdUnmapped1FB0 a k => encodeRead a (0b111111011#9 ++ k)
  | .rdGprB0 a k => encodeRead a (0b11111110#8 ++ k)
  | .rdGprB1 a k => encodeRead a (0b111111110#9 ++ k)
  | .rdUnmapped1FF0 a k => encodeRead a (0b111111111#9 ++ k)
  | .wrScratch0000 a k d => encodeWrite a (0b00#2 ++ k) d
  | .wrScratch0800 a k d => encodeWrite a (0b010#3 ++ k) d
  | .wrScratchOor a k d => encodeWrite a (0b011#3 ++ k) d
  | .wrScratch1000 a k d => encodeWrite a (0b10#2 ++ k) d
  | .wrScratch1800 a k d => encodeWrite a (0b110#3 ++ k) d
  | .wrUnmapped1C00 a k d => encodeWrite a (0b1110#4 ++ k) d
  | .wrUnmapped1E00 a k d => encodeWrite a (0b11110#5 ++ k) d
  | .wrUnmapped1F00 a k d => encodeWrite a (0b1111100#7 ++ k) d
  | .wrDmasrcL a d => encodeWrite a 0x1F40#13 d
  | .wrDmasrcM a d => encodeWrite a 0x1F41#13 d
  | .wrDmasrcH a d => encodeWrite a 0x1F42#13 d
  | .wrDmalenL a d => encodeWrite a 0x1F43#13 d
  | .wrDmalenH a d => encodeWrite a 0x1F44#13 d
  | .wrDmatgtL a d => encodeWrite a 0x1F45#13 d
  | .wrDmatgtM a d => encodeWrite a 0x1F46#13 d
  | .wrDmatgtH a d => encodeWrite a 0x1F47#13 d
  | .wrCpreload a d => encodeWrite a 0x1F48#13 d
  | .wrProgofsL a d => encodeWrite a 0x1F49#13 d
  | .wrProgofsM a d => encodeWrite a 0x1F4A#13 d
  | .wrProgofsH a d => encodeWrite a 0x1F4B#13 d
  | .wrCachelock a d => encodeWrite a 0x1F4C#13 d
  | .wrPageL a d => encodeWrite a 0x1F4D#13 d
  | .wrPageH a d => encodeWrite a 0x1F4E#13 d
  | .wrPc a d => encodeWrite a 0x1F4F#13 d
  | .wrSpeed a d => encodeWrite a 0x1F50#13 d
  | .wrR1F51 a d => encodeWrite a 0x1F51#13 d
  | .wrR1F52 a d => encodeWrite a 0x1F52#13 d
  | .wrHalt a d => encodeWrite a 0x1F53#13 d
  | .wrNop1F54 a d => encodeWrite a 0x1F54#13 d
  | .wrSuspend0 a d => encodeWrite a 0x1F55#13 d
  | .wrSuspend1 a d => encodeWrite a 0x1F56#13 d
  | .wrSuspend2 a d => encodeWrite a 0x1F57#13 d
  | .wrSuspend3 a d => encodeWrite a 0x1F58#13 d
  | .wrSuspend4 a d => encodeWrite a 0x1F59#13 d
  | .wrSuspend5 a d => encodeWrite a 0x1F5A#13 d
  | .wrSuspend6 a d => encodeWrite a 0x1F5B#13 d
  | .wrSuspend7 a d => encodeWrite a 0x1F5C#13 d
  | .wrUnsuspend a d => encodeWrite a 0x1F5D#13 d
  | .wrNop1F5E a d => encodeWrite a 0x1F5E#13 d
  | .wrNop1F5F a d => encodeWrite a 0x1F5F#13 d
  | .wrVector a k d => encodeWrite a (0b11111011#8 ++ k) d
  | .wrGprA0 a k d => encodeWrite a (0b11111100#8 ++ k) d
  | .wrGprA1 a k d => encodeWrite a (0b111111010#9 ++ k) d
  | .wrUnmapped1FB0 a k d => encodeWrite a (0b111111011#9 ++ k) d
  | .wrGprB0 a k d => encodeWrite a (0b11111110#8 ++ k) d
  | .wrGprB1 a k d => encodeWrite a (0b111111110#9 ++ k) d
  | .wrUnmapped1FF0 a k d => encodeWrite a (0b111111111#9 ++ k) d
  | .romRead ctx addr => { port := .rom, bytes := bytes24 addr ++ [match ctx with | .host => 0 | .chip => 1] }
  | .speedQuery addr => { port := .speed, bytes := bytes24 addr }
  | .dmaStart => { port := .step, bytes := [0] }
  | .dmaByte => { port := .step, bytes := [1] }
  | .dmaDone => { port := .step, bytes := [2] }
  | .cloadByte => { port := .step, bytes := [3] }
  | .cloadDone => { port := .step, bytes := [4] }
  | .suspExpire => { port := .step, bytes := [5] }
  | .engHalt => { port := .event, bytes := [0] }
  | .engGpr i v => { port := .event, bytes := [1, i.setWidth 8] ++ bytes24 v }
  | .engFill p => { port := .event, bytes := 2 :: bytes16 (p.setWidth 16) }
  | .engPage b => { port := .event, bytes := [3, if b.bit then 1 else 0] }
  | .engBus (.read addr) => { port := .event, bytes := [4, 0] ++ bytes24 addr }
  | .engBus (.write addr d) => { port := .event, bytes := [4, 1] ++ bytes24 addr ++ [d] }

/-! ## The opcode table -/

/-- A window row of spec/opcode_table.json: its mnemonic, its mask and match on the key with `dbg` masked out (bit 13 `W`, bits 12:0
the offset), and the transaction it stands for. -/
structure WindowRow where
  mnemonic : String
  mask     : BitVec 14
  pattern  : BitVec 14
  build    : Access → Offset → Byte → Instr

/-- A row matches a key when they agree in the bits of its mask. -/
def WindowRow.matches (r : WindowRow) (key : BitVec 14) : Bool := key &&& r.mask == r.pattern

/-- The RD rows, in the table's order. -/
def readRows : List WindowRow :=
  [⟨"RD_SCRATCH_0000", 0x3800, 0x0000, fun a o _ => .rdScratch0000 a (o.extractLsb' 0 11)⟩,
   ⟨"RD_SCRATCH_0800", 0x3C00, 0x0800, fun a o _ => .rdScratch0800 a (o.extractLsb' 0 10)⟩,
   ⟨"RD_SCRATCH_OOR", 0x3C00, 0x0C00, fun a o _ => .rdScratchOor a (o.extractLsb' 0 10)⟩,
   ⟨"RD_SCRATCH_1000", 0x3800, 0x1000, fun a o _ => .rdScratch1000 a (o.extractLsb' 0 11)⟩,
   ⟨"RD_SCRATCH_1800", 0x3C00, 0x1800, fun a o _ => .rdScratch1800 a (o.extractLsb' 0 10)⟩,
   ⟨"RD_UNMAPPED_1C00", 0x3E00, 0x1C00, fun a o _ => .rdUnmapped1C00 a (o.extractLsb' 0 9)⟩,
   ⟨"RD_UNMAPPED_1E00", 0x3F00, 0x1E00, fun a o _ => .rdUnmapped1E00 a (o.extractLsb' 0 8)⟩,
   ⟨"RD_UNMAPPED_1F00", 0x3FC0, 0x1F00, fun a o _ => .rdUnmapped1F00 a (o.extractLsb' 0 6)⟩,
   ⟨"RD_DMASRC_L", 0x3FFF, 0x1F40, fun a _ _ => .rdDmasrcL a⟩,
   ⟨"RD_DMASRC_M", 0x3FFF, 0x1F41, fun a _ _ => .rdDmasrcM a⟩,
   ⟨"RD_DMASRC_H", 0x3FFF, 0x1F42, fun a _ _ => .rdDmasrcH a⟩,
   ⟨"RD_DMALEN_L", 0x3FFF, 0x1F43, fun a _ _ => .rdDmalenL a⟩,
   ⟨"RD_DMALEN_H", 0x3FFF, 0x1F44, fun a _ _ => .rdDmalenH a⟩,
   ⟨"RD_DMATGT_L", 0x3FFF, 0x1F45, fun a _ _ => .rdDmatgtL a⟩,
   ⟨"RD_DMATGT_M", 0x3FFF, 0x1F46, fun a _ _ => .rdDmatgtM a⟩,
   ⟨"RD_DMATGT_H", 0x3FFF, 0x1F47, fun a _ _ => .rdDmatgtH a⟩] ++
  [⟨"RD_CPRELOAD", 0x3FFF, 0x1F48, fun a _ _ => .rdCpreload a⟩,
   ⟨"RD_PROGOFS_L", 0x3FFF, 0x1F49, fun a _ _ => .rdProgofsL a⟩,
   ⟨"RD_PROGOFS_M", 0x3FFF, 0x1F4A, fun a _ _ => .rdProgofsM a⟩,
   ⟨"RD_PROGOFS_H", 0x3FFF, 0x1F4B, fun a _ _ => .rdProgofsH a⟩,
   ⟨"RD_CACHELOCK", 0x3FFF, 0x1F4C, fun a _ _ => .rdCachelock a⟩,
   ⟨"RD_PAGE_L", 0x3FFF, 0x1F4D, fun a _ _ => .rdPageL a⟩,
   ⟨"RD_PAGE_H", 0x3FFF, 0x1F4E, fun a _ _ => .rdPageH a⟩,
   ⟨"RD_PC", 0x3FFF, 0x1F4F, fun a _ _ => .rdPc a⟩,
   ⟨"RD_SPEED", 0x3FFF, 0x1F50, fun a _ _ => .rdSpeed a⟩,
   ⟨"RD_R1F51", 0x3FFF, 0x1F51, fun a _ _ => .rdR1F51 a⟩,
   ⟨"RD_R1F52", 0x3FFF, 0x1F52, fun a _ _ => .rdR1F52 a⟩,
   ⟨"RD_STATUS_1F53", 0x3FFF, 0x1F53, fun a _ _ => .rdStatus1F53 a⟩,
   ⟨"RD_STATUS_1F54", 0x3FFF, 0x1F54, fun a _ _ => .rdStatus1F54 a⟩,
   ⟨"RD_STATUS_1F55", 0x3FFF, 0x1F55, fun a _ _ => .rdStatus1F55 a⟩,
   ⟨"RD_STATUS_1F56", 0x3FFF, 0x1F56, fun a _ _ => .rdStatus1F56 a⟩,
   ⟨"RD_STATUS_1F57", 0x3FFF, 0x1F57, fun a _ _ => .rdStatus1F57 a⟩] ++
  [⟨"RD_STATUS_1F58", 0x3FFF, 0x1F58, fun a _ _ => .rdStatus1F58 a⟩,
   ⟨"RD_STATUS_1F59", 0x3FFF, 0x1F59, fun a _ _ => .rdStatus1F59 a⟩,
   ⟨"RD_STATUS_1F5A", 0x3FFF, 0x1F5A, fun a _ _ => .rdStatus1F5A a⟩,
   ⟨"RD_STATUS_1F5B", 0x3FFF, 0x1F5B, fun a _ _ => .rdStatus1F5B a⟩,
   ⟨"RD_STATUS_1F5C", 0x3FFF, 0x1F5C, fun a _ _ => .rdStatus1F5C a⟩,
   ⟨"RD_STATUS_1F5D", 0x3FFF, 0x1F5D, fun a _ _ => .rdStatus1F5D a⟩,
   ⟨"RD_STATUS_1F5E", 0x3FFF, 0x1F5E, fun a _ _ => .rdStatus1F5E a⟩,
   ⟨"RD_STATUS_1F5F", 0x3FFF, 0x1F5F, fun a _ _ => .rdStatus1F5F a⟩,
   ⟨"RD_VECTOR", 0x3FE0, 0x1F60, fun a o _ => .rdVector a (o.extractLsb' 0 5)⟩,
   ⟨"RD_GPR_A0", 0x3FE0, 0x1F80, fun a o _ => .rdGprA0 a (o.extractLsb' 0 5)⟩,
   ⟨"RD_GPR_A1", 0x3FF0, 0x1FA0, fun a o _ => .rdGprA1 a (o.extractLsb' 0 4)⟩,
   ⟨"RD_UNMAPPED_1FB0", 0x3FF0, 0x1FB0, fun a o _ => .rdUnmapped1FB0 a (o.extractLsb' 0 4)⟩,
   ⟨"RD_GPR_B0", 0x3FE0, 0x1FC0, fun a o _ => .rdGprB0 a (o.extractLsb' 0 5)⟩,
   ⟨"RD_GPR_B1", 0x3FF0, 0x1FE0, fun a o _ => .rdGprB1 a (o.extractLsb' 0 4)⟩,
   ⟨"RD_UNMAPPED_1FF0", 0x3FF0, 0x1FF0, fun a o _ => .rdUnmapped1FF0 a (o.extractLsb' 0 4)⟩]

/-- The WR rows, in the table's order. -/
def writeRows : List WindowRow :=
  [⟨"WR_SCRATCH_0000", 0x3800, 0x2000, fun a o d => .wrScratch0000 a (o.extractLsb' 0 11) d⟩,
   ⟨"WR_SCRATCH_0800", 0x3C00, 0x2800, fun a o d => .wrScratch0800 a (o.extractLsb' 0 10) d⟩,
   ⟨"WR_SCRATCH_OOR", 0x3C00, 0x2C00, fun a o d => .wrScratchOor a (o.extractLsb' 0 10) d⟩,
   ⟨"WR_SCRATCH_1000", 0x3800, 0x3000, fun a o d => .wrScratch1000 a (o.extractLsb' 0 11) d⟩,
   ⟨"WR_SCRATCH_1800", 0x3C00, 0x3800, fun a o d => .wrScratch1800 a (o.extractLsb' 0 10) d⟩,
   ⟨"WR_UNMAPPED_1C00", 0x3E00, 0x3C00, fun a o d => .wrUnmapped1C00 a (o.extractLsb' 0 9) d⟩,
   ⟨"WR_UNMAPPED_1E00", 0x3F00, 0x3E00, fun a o d => .wrUnmapped1E00 a (o.extractLsb' 0 8) d⟩,
   ⟨"WR_UNMAPPED_1F00", 0x3FC0, 0x3F00, fun a o d => .wrUnmapped1F00 a (o.extractLsb' 0 6) d⟩,
   ⟨"WR_DMASRC_L", 0x3FFF, 0x3F40, fun a _ d => .wrDmasrcL a d⟩,
   ⟨"WR_DMASRC_M", 0x3FFF, 0x3F41, fun a _ d => .wrDmasrcM a d⟩,
   ⟨"WR_DMASRC_H", 0x3FFF, 0x3F42, fun a _ d => .wrDmasrcH a d⟩,
   ⟨"WR_DMALEN_L", 0x3FFF, 0x3F43, fun a _ d => .wrDmalenL a d⟩,
   ⟨"WR_DMALEN_H", 0x3FFF, 0x3F44, fun a _ d => .wrDmalenH a d⟩,
   ⟨"WR_DMATGT_L", 0x3FFF, 0x3F45, fun a _ d => .wrDmatgtL a d⟩,
   ⟨"WR_DMATGT_M", 0x3FFF, 0x3F46, fun a _ d => .wrDmatgtM a d⟩,
   ⟨"WR_DMATGT_H", 0x3FFF, 0x3F47, fun a _ d => .wrDmatgtH a d⟩] ++
  [⟨"WR_CPRELOAD", 0x3FFF, 0x3F48, fun a _ d => .wrCpreload a d⟩,
   ⟨"WR_PROGOFS_L", 0x3FFF, 0x3F49, fun a _ d => .wrProgofsL a d⟩,
   ⟨"WR_PROGOFS_M", 0x3FFF, 0x3F4A, fun a _ d => .wrProgofsM a d⟩,
   ⟨"WR_PROGOFS_H", 0x3FFF, 0x3F4B, fun a _ d => .wrProgofsH a d⟩,
   ⟨"WR_CACHELOCK", 0x3FFF, 0x3F4C, fun a _ d => .wrCachelock a d⟩,
   ⟨"WR_PAGE_L", 0x3FFF, 0x3F4D, fun a _ d => .wrPageL a d⟩,
   ⟨"WR_PAGE_H", 0x3FFF, 0x3F4E, fun a _ d => .wrPageH a d⟩,
   ⟨"WR_PC", 0x3FFF, 0x3F4F, fun a _ d => .wrPc a d⟩,
   ⟨"WR_SPEED", 0x3FFF, 0x3F50, fun a _ d => .wrSpeed a d⟩,
   ⟨"WR_R1F51", 0x3FFF, 0x3F51, fun a _ d => .wrR1F51 a d⟩,
   ⟨"WR_R1F52", 0x3FFF, 0x3F52, fun a _ d => .wrR1F52 a d⟩,
   ⟨"WR_HALT", 0x3FFF, 0x3F53, fun a _ d => .wrHalt a d⟩,
   ⟨"WR_NOP_1F54", 0x3FFF, 0x3F54, fun a _ d => .wrNop1F54 a d⟩,
   ⟨"WR_SUSPEND0", 0x3FFF, 0x3F55, fun a _ d => .wrSuspend0 a d⟩,
   ⟨"WR_SUSPEND1", 0x3FFF, 0x3F56, fun a _ d => .wrSuspend1 a d⟩,
   ⟨"WR_SUSPEND2", 0x3FFF, 0x3F57, fun a _ d => .wrSuspend2 a d⟩] ++
  [⟨"WR_SUSPEND3", 0x3FFF, 0x3F58, fun a _ d => .wrSuspend3 a d⟩,
   ⟨"WR_SUSPEND4", 0x3FFF, 0x3F59, fun a _ d => .wrSuspend4 a d⟩,
   ⟨"WR_SUSPEND5", 0x3FFF, 0x3F5A, fun a _ d => .wrSuspend5 a d⟩,
   ⟨"WR_SUSPEND6", 0x3FFF, 0x3F5B, fun a _ d => .wrSuspend6 a d⟩,
   ⟨"WR_SUSPEND7", 0x3FFF, 0x3F5C, fun a _ d => .wrSuspend7 a d⟩,
   ⟨"WR_UNSUSPEND", 0x3FFF, 0x3F5D, fun a _ d => .wrUnsuspend a d⟩,
   ⟨"WR_NOP_1F5E", 0x3FFF, 0x3F5E, fun a _ d => .wrNop1F5E a d⟩,
   ⟨"WR_NOP_1F5F", 0x3FFF, 0x3F5F, fun a _ d => .wrNop1F5F a d⟩,
   ⟨"WR_VECTOR", 0x3FE0, 0x3F60, fun a o d => .wrVector a (o.extractLsb' 0 5) d⟩,
   ⟨"WR_GPR_A0", 0x3FE0, 0x3F80, fun a o d => .wrGprA0 a (o.extractLsb' 0 5) d⟩,
   ⟨"WR_GPR_A1", 0x3FF0, 0x3FA0, fun a o d => .wrGprA1 a (o.extractLsb' 0 4) d⟩,
   ⟨"WR_UNMAPPED_1FB0", 0x3FF0, 0x3FB0, fun a o d => .wrUnmapped1FB0 a (o.extractLsb' 0 4) d⟩,
   ⟨"WR_GPR_B0", 0x3FE0, 0x3FC0, fun a o d => .wrGprB0 a (o.extractLsb' 0 5) d⟩,
   ⟨"WR_GPR_B1", 0x3FF0, 0x3FE0, fun a o d => .wrGprB1 a (o.extractLsb' 0 4) d⟩,
   ⟨"WR_UNMAPPED_1FF0", 0x3FF0, 0x3FF0, fun a o d => .wrUnmapped1FF0 a (o.extractLsb' 0 4) d⟩]

/-- The 94 window rows (spec/opcode_table.json, format WIN). -/
def windowRows : List WindowRow := readRows ++ writeRows

/-! ## The host's numbering of a table row's word -/

/-- The transaction whose bits are `w` in spec/opcode_table.json's numbering: the table's widths tell a window key (two bytes), a
24-bit address and a kind number apart, and nothing tells ROM-R from SPEED or STEP from EVENT: the ROM port and the Controller's
kinds are taken (notes/assumptions/3.md). Every bit the transaction has above them is zero. -/
def tableTxn (nbits w : Nat) : Txn :=
  let b (k : Nat) : Byte := BitVec.ofNat 8 (w >>> (8 * k))
  if nbits ≤ 8 then { port := .step, bytes := [b 0] }
  else if nbits ≤ 16 then
    { port := .window, bytes := [b 0, b 1, 0] ++ (if w.testBit 13 then [0] else []) }
  else { port := .rom, bytes := [b 0, b 1, b 2, 0] }

/-- The instruction the decoder reads from a table word. -/
def decodeTableWord (nbits w : Nat) : Option Instr :=
  match decode (tableTxn nbits w) with
  | .ok i => some i
  | .error _ => none

end Sys2Proof
end

