-- ==== Sys2Proof/Machine/State.lean ====
section
/-! DEFINITION. The state of the block and of its surroundings, as plain data; the reasons a step can stop; the state after reset.
`Block` is the record `S` of spec/10_state.md R20 and holds exactly the fields of R21 to R41. `State` adds what the model needs
around it: what the environment schedules, what the cartridge collaborator answers, and the trace of bus events. -/

namespace Sys2Proof.Machine

/-- A byte memory as a list of cells: addresses strictly rising, no cell equal to what an unlisted address reads as
(`Memory.wf` in Machine/Ops.lean; notes/assumptions/5.md). -/
abbrev Memory := List Host.Cell

/-- `S.dmaLatch`: the DMA parameters copied at trigger time (R40). -/
structure DmaLatch where
  src : Addr
  len : BitVec 16
  tgt : Addr
deriving DecidableEq, Repr

/-- `S.dmaCur`: the address generator (R40). -/
structure DmaCur where
  src       : Addr
  tgt       : Addr
  remaining : BitVec 17
deriving DecidableEq, Repr

/-- `S.cload`: the cache loader's latch and byte counter; `fill` is set for an Engine fill request (R41). -/
structure Cload where
  bank  : Bank
  page  : BitVec 15
  addr  : Addr
  count : BitVec 10
  fill  : Bool
deriving DecidableEq, Repr

/-- What the spec indexes by bank: `S.lock[b]` (R26), `S.cacheMem[b]` and `S.tag[b] = (valid, page)` (R41). -/
structure BankState where
  lock  : Bool
  mem   : Memory
  valid : Bool
  page  : BitVec 15
deriving DecidableEq, Repr

/-- The block state `S` (R20 to R41). One-bit fields are Bools, true for 1. -/
structure Block where
  dmaSource      : BitVec 24
  dmaLength      : BitVec 16
  dmaTarget      : BitVec 24
  cachePreload   : Bool
  programOffset  : BitVec 24
  pageNumber     : BitVec 15
  programCounter : BitVec 8
  ramSpeed       : BitVec 3
  romSpeed       : BitVec 3
  r1f51          : Bool
  r1f52          : Bool
  vector         : Vector Byte 32
  gpr            : Vector (BitVec 24) 16
  scratch        : Memory
  halt           : Bool
  pcFull         : BitVec 23
  cachePage      : Bank
  dmaPending     : Bool
  cacheLoading   : Bool
  suspend        : Bool
  suspendCycles  : BitVec 8
  dmaLatch       : DmaLatch
  dmaActive      : Bool
  dmaCur         : DmaCur
  cload          : Cload
  bank0          : BankState
  bank1          : BankState
deriving DecidableEq, Repr

/-- One value for every field whose reset value is a draw (R46, `ResetFill`, decision D29): the arrays byte by byte. -/
structure ResetDraw where
  dmaSource      : BitVec 24
  dmaLength      : BitVec 16
  dmaTarget      : BitVec 24
  programOffset  : BitVec 24
  pageNumber     : BitVec 15
  programCounter : BitVec 8
  vector         : Vector Byte 32
  gpr            : Vector (BitVec 24) 16
  scratch        : List Host.Cell
  pcFull         : BitVec 23
  dmaLatch       : DmaLatch
  dmaCur         : DmaCur
  cload          : Cload
  cacheMem0      : List Host.Cell
  cacheMem1      : List Host.Cell
  tagPage0       : BitVec 15
  tagPage1       : BitVec 15
deriving DecidableEq, Repr

/-- What the environment schedules: a transaction, step or event at its port, or a host-system reset with the values it draws if it
re-initialises the block (spec/70_reset_and_hazards.md R282; notes/assumptions/14.md). -/
inductive Entry where
  | txn (t : Txn)
  | systemReset (d : ResetDraw)
deriving DecidableEq, Repr

/-- The Controller steps (spec/43_dma_cache.md). -/
inductive StepKind where
  | dmaStart
  | dmaByte
  | dmaDone
  | cloadByte
  | cloadDone
  | suspExpire
deriving DecidableEq, Repr

/-- The outcome `stuck` of spec/00_scope.md R8: the agent has no such step in this state. It is what a meaning answers; the machine
does not stop at it, since "a stuck Engine is not a final state" (spec/60_exceptions.md R262): `step` passes the entry over
(notes/assumptions/6.md). The constructors are SAFE: the spec's agent has no step here (`engineStuck`: see notes/assumptions/19.md). -/
inductive Fault where
  /-- A Controller step whose enabling condition fails (spec/43_dma_cache.md R200 to R213). Raised by the six Controller steps.
  Safe. -/
  | controllerStepNotEnabled (k : StepKind)
  /-- An Engine event while `engineGrant` is false (spec/44_run_state.md R242). Raised by the five Engine events. Safe. -/
  | engineNotGranted
  /-- An Engine event after a locked miss, before the host has unlocked a bank (spec/43_dma_cache.md R210). Raised by the five Engine
  events. Safe but for what notes/assumptions/19.md says. -/
  | engineStuck
  /-- ENG-FILL of a page that a bank already holds (R246). Safe. -/
  | enginePageHeld (p : BitVec 15)
  /-- ENG-PAGE to a bank whose tag is not valid (R247). Safe. -/
  | engineBankInvalid (b : Bank)
  /-- ENG-FILL with both banks locked, `LockedMissPolicy = Stuck` (spec/43_dma_cache.md R210). Raised by ENG-FILL; a step that takes
  it leaves the Engine stuck (`State.engineStuck`). Safe. -/
  | lockedMissStuck (p : BitVec 15)
deriving DecidableEq, Repr

/-- What is seen of the block from outside (notes/assumptions/10.md): a `sync(ctx)` (spec/40_bus_dispatch.md R101), the byte a read
returns (spec/00_scope.md R8), the class a speed query returns, the byte an Engine bus read returns, the accesses that reach the
cartridge collaborator (spec/20_memory.md R70), and that a scheduled step was `stuck` and not taken (R8). -/
inductive BusEvent where
  | sync (ctx : Ctx)
  | readData (d : Byte)
  | speedClass (c : BitVec 3)
  | engineData (d : Byte)
  | cartRead (a : Addr) (v : Byte)
  | cartWrite (a : Addr) (v : Byte)
  | stuck (f : Fault)
deriving DecidableEq, Repr

/-- The whole state. `blk` is the spec's `S`. `engineStuck` is the Engine's, not the block's: set by a locked miss, it leaves the
Engine no enabled step until the host unlocks a bank (spec/43_dma_cache.md R210; notes/assumptions/19.md). The rest is the model's
own: `inbox`, what is scheduled, the next entry first (notes/assumptions/2.md); `cartIn`, the bytes the cartridge answers next, and
`draws`, how many free bytes it has answered since they ran out (notes/assumptions/7.md); `trace`, the bus events so far, the oldest
first (notes/assumptions/10.md). -/
structure State where
  blk         : Block
  engineStuck : Bool
  inbox       : List Entry
  cartIn      : List Byte
  draws       : Nat
  trace       : List BusEvent
deriving DecidableEq, Repr

/-- Where the spec gives a step no meaning (spec/60_exceptions.md R262), or the bytes are no transaction. -/
inductive Refusal where
  /-- An instruction that has no meaning in this model yet. Raised by `exec`'s arms only. Safe. -/
  | notModelled (mnemonic : String)
  /-- `refuse DmaControlSpace`: a chip-bus access to the block's own control space (spec/43_dma_cache.md R211,
  spec/44_run_state.md R248). Raised by DMA-BYTE, CLOAD-BYTE and ENG-BUS. Safe. -/
  | dmaControlSpace
  /-- ENG-FILL with both banks locked, were `LockedMissPolicy` a refusal (spec/00_scope.md R8, decision D18). Safe. -/
  | lockedMiss (p : BitVec 15)
  /-- Bytes that are no transaction, which the bus layer "must validate before invoking this core's operations"
  (spec/60_exceptions.md R262). Raised by `step`. Safe. -/
  | malformed (e : DecodeError)
deriving DecidableEq, Repr

/-- A bank right after initialisation: unlocked and invalid (R46); page and contents are draws, here 0. -/
def BankState.reset : BankState := { lock := false, mem := [], valid := false, page := 0 }

/-- `S` right after initialisation (spec/70_reset_and_hazards.md R280, spec/10_state.md R46): Halted, every field of decision D26 at
0. DESIGN CHOICE (notes/assumptions/4.md): the fields R46 calls draws are 0 here; `resetDraw` in Machine/Ops.lean has every other
value they may take. -/
def Block.reset : Block :=
  { dmaSource := 0, dmaLength := 0, dmaTarget := 0, cachePreload := false, programOffset := 0, pageNumber := 0,
    programCounter := 0, ramSpeed := 0, romSpeed := 0, r1f51 := false, r1f52 := false,
    vector := Vector.replicate 32 0, gpr := Vector.replicate 16 0, scratch := [],
    halt := true, pcFull := 0, cachePage := .b0, dmaPending := false, cacheLoading := false,
    suspend := false, suspendCycles := 0,
    dmaLatch := { src := 0, len := 0, tgt := 0 }, dmaActive := false, dmaCur := { src := 0, tgt := 0, remaining := 0 },
    cload := { bank := .b0, page := 0, addr := 0, count := 0, fill := false },
    bank0 := BankState.reset, bank1 := BankState.reset }

/-- The state right after reset: no Engine stuck, nothing scheduled, nothing drawn, nothing traced. -/
def State.reset : State := { blk := Block.reset, engineStuck := false, inbox := [], cartIn := [], draws := 0, trace := [] }

end Sys2Proof.Machine
end

