-- ==== Sys2Proof/Machine/Operands.lean ====
section
/-! DEFINITION. The operand forms of the block: byte slots of multi-byte fields, the GPR operand, the formulas of spec/00_scope.md R6
that compute an address or split a byte, and the routing of chip-bus addresses. -/

namespace Sys2Proof.Machine

/-! ## Byte slots -/

/-- `(F >> 8k)[7:0]`, the byte a read of slot `k` returns; bits the field lacks read 0 (spec/41_register_read.md R130). -/
def byteSlot {w : Nat} (f : BitVec w) (k : Nat) : Byte := (f >>> (8 * k)).setWidth 8

/-- `M = (0xFF << 8k) AND (2^w − 1)` (spec/42_register_write.md R160). -/
def slotMask (w k : Nat) : BitVec w := BitVec.ofNat w (0xFF <<< (8 * k))

/-- `F <- (F AND NOT M) OR ((zext(d) << 8k) AND M)`, the merge of byte `d` into slot `k` (spec/42_register_write.md R160). -/
def mergeSlot {w : Nat} (f : BitVec w) (k : Nat) (d : Byte) : BitVec w :=
  (f &&& ~~~slotMask w k) ||| ((d.setWidth w <<< (8 * k)) &&& slotMask w k)

/-- A one-bit field as the byte a read returns, zero-extended (spec/41_register_read.md R139, R148, R149). -/
def flagByte (b : Bool) : Byte := (BitVec.ofBool b).setWidth 8

/-! ## The GPR operand -/

/-- `index = m div 3` for `m = o mod 64` in a GPR window (spec/30_encoding.md R85). -/
def gprIndex (m : Fin 48) : Fin 16 := ⟨m.val / 3, by omega⟩

/-- `slot = m mod 3` (spec/30_encoding.md R85). -/
def gprSlot (m : Fin 48) : Nat := m.val % 3

/-- `m` in the first 32 bytes of a GPR window: offsets 0x1F80 to 0x1F9F, or 0x1FC0 to 0x1FDF. -/
def gprLowPart (m : BitVec 5) : Fin 48 := ⟨m.toNat, by omega⟩

/-- `m` in the last 16 bytes of a GPR window: offsets 0x1FA0 to 0x1FAF, or 0x1FE0 to 0x1FEF. -/
def gprHighPart (m : BitVec 4) : Fin 48 := ⟨32 + m.toNat, by omega⟩

/-! ## Formulas -/

/-- `CacheSourceAddr(base, page) = (base + page × CachePageBytes) mod 2^24` (spec/43_dma_cache.md R206). -/
def cacheSourceAddr (base : BitVec 24) (page : BitVec 15) : Addr :=
  base + page.setWidth 24 * BitVec.ofNat 24 Config.cachePageBytes

/-- `pageNumber × 256 + d`, 23 bits (spec/42_register_write.md R178). -/
def entryAddress (page : BitVec 15) (d : Byte) : BitVec 23 := page.setWidth 23 * 256#23 + d.setWidth 23

/-- ramSpeed is bits [2:0] of the speed byte (`SpeedLayout`, spec/10_state.md R29). -/
def ramSpeedOf (d : Byte) : BitVec 3 := d.extractLsb' 0 3

/-- romSpeed is bits [6:4] of the speed byte (`SpeedLayout`, spec/10_state.md R29). -/
def romSpeedOf (d : Byte) : BitVec 3 := d.extractLsb' 4 3

/-- `{0, romSpeed, 0, ramSpeed}` (spec/41_register_read.md R147). -/
def speedByte (rom ram : BitVec 3) : Byte := 0#1 ++ rom ++ 0#1 ++ ram

/-- `{000000, lock[1], lock[0]}` (spec/41_register_read.md R143). -/
def lockByte (l1 l0 : Bool) : Byte := 0#6 ++ BitVec.ofBool l1 ++ BitVec.ofBool l0

/-- The count of suspend address `k`: `SuspendUnit × k` (spec/42_register_write.md R184 to R191). -/
def suspendCount (k : Nat) : BitVec 8 := BitVec.ofNat 8 (Config.suspendUnit * k)

/-- `VectorWindow(addr) = (addr AND 0x40FFE0) = 0x00FFE0` (spec/40_bus_dispatch.md R112). -/
def vectorWindow (a : Addr) : Bool := a &&& 0x40FFE0#24 == 0x00FFE0#24

/-! ## Routing -/

/-- Control space is `o[12:10] = 0b111`, scratch space the rest of the window (spec/30_encoding.md R82). -/
def isControl (o : Offset) : Bool := o.extractLsb' 10 3 == 0b111#3

/-- Where a chip-bus address leads (spec/20_memory.md R70). -/
inductive Route where
  | scratch (i : BitVec 12)
  | control
  | cartridge
deriving DecidableEq, Repr

/-- The routing of `ChipBusRead` and `ChipBusWrite` (spec/20_memory.md R70). -/
def route (a : Addr) : Route :=
  if Config.inChipWindow a then
    if isControl (a.extractLsb' 0 13) then .control else .scratch (a.extractLsb' 0 12)
  else .cartridge

/-! ## Banks -/

/-- The bank that is not `b`: `1 − b` (spec/43_dma_cache.md R209). -/
def otherBank : Bank → Bank
  | .b0 => .b1
  | .b1 => .b0

/-- What the spec indexes by bank, at `b`. -/
def Block.bank (s : Block) : Bank → BankState
  | .b0 => s.bank0
  | .b1 => s.bank1

/-- Replace bank `b`. -/
def Block.setBank (s : Block) (b : Bank) (x : BankState) : Block :=
  match b with
  | .b0 => { s with bank0 := x }
  | .b1 => { s with bank1 := x }

/-- `S.tag[b]` is `(valid 1, page p)` (spec/44_run_state.md R246). -/
def BankState.holds (x : BankState) (p : BitVec 15) : Bool := x.valid && x.page == p

end Sys2Proof.Machine
end

