-- ==== Sys2Proof/Machine/Flags.lean ====
section
/-! DEFINITION. The derived signals of the block, functions of `S` recomputed at every use (spec/10_state.md R42), the chip-bus owner
and the Engine grant, and the enabling condition of every Controller step. -/

namespace Sys2Proof.Machine

/-! ## The status signals -/

/-- `running(S) = NOT S.halt` (R42). -/
def Block.running (s : Block) : Bool := !s.halt

/-- `busy(S) = running(S) OR S.dmaPending OR S.dmaActive OR S.cacheLoading` (R42). -/
def Block.busy (s : Block) : Bool := s.running || s.dmaPending || s.dmaActive || s.cacheLoading

/-- `idle(S) = NOT busy(S)` (R42). -/
def Block.idle (s : Block) : Bool := !s.busy

/-- `status(S) = {busy(S), running(S), 0000, S.halt, S.suspend}` (R42). -/
def Block.status (s : Block) : Byte :=
  BitVec.ofBool s.busy ++ BitVec.ofBool s.running ++ 0#4 ++ BitVec.ofBool s.halt ++ BitVec.ofBool s.suspend

/-- `RomPassCond(S) = NOT S.suspend AND idle(S)` (spec/40_bus_dispatch.md R111). -/
def Block.romPassCond (s : Block) : Bool := !s.suspend && s.idle

/-! ## The chip bus and the Engine -/

/-- Who owns the chip bus (spec/43_dma_cache.md R200). -/
inductive BusOwner where
  | dma
  | loader
  | engine
deriving DecidableEq, Repr

/-- `busOwner(S)` (spec/43_dma_cache.md R200): an active DMA, then a started load, then a DMA start, then an unstarted load. -/
def Block.busOwner (s : Block) : BusOwner :=
  if s.dmaActive then .dma
  else if s.cacheLoading && s.cload.count != 0 then .loader
  else if s.dmaPending && s.halt then .dma
  else if s.cacheLoading then .loader
  else .engine

/-- `engineGrant(S) = (S.halt = 0) ∧ (S.suspend = 0) ∧ (busOwner(S) = ENGINE)` (spec/44_run_state.md R242). -/
def Block.engineGrant (s : Block) : Bool := !s.halt && !s.suspend && s.busOwner == .engine

/-- `FillBank(S)`, none where both banks are locked (spec/43_dma_cache.md R209). -/
def Block.fillBank (s : Block) : Option Bank :=
  let a := s.cachePage
  let nb := otherBank a
  if !(s.bank nb).lock then some nb else if !(s.bank a).lock then some a else none

/-- Some bank's tag is `(valid 1, page p)` (spec/44_run_state.md R246). -/
def Block.pageHeld (s : Block) (p : BitVec 15) : Bool := s.bank0.holds p || s.bank1.holds p

/-! ## Enabling conditions of the Controller steps -/

/-- spec/43_dma_cache.md R201. -/
def Block.dmaStartEnabled (s : Block) : Bool := !s.dmaActive && s.dmaPending && s.halt && s.busOwner == .dma

/-- spec/43_dma_cache.md R202. -/
def Block.dmaByteEnabled (s : Block) : Bool := s.dmaActive && s.dmaCur.remaining != 0

/-- spec/43_dma_cache.md R203. -/
def Block.dmaDoneEnabled (s : Block) : Bool := s.dmaActive && s.dmaCur.remaining == 0

/-- spec/43_dma_cache.md R205. -/
def Block.cloadByteEnabled (s : Block) : Bool :=
  s.cacheLoading && decide (s.cload.count.toNat < Config.cachePageBytes) && s.busOwner == .loader

/-- spec/43_dma_cache.md R207, and R200: only the owner's next step is enabled (notes/assumptions/12.md). -/
def Block.cloadDoneEnabled (s : Block) : Bool :=
  s.cacheLoading && s.cload.count.toNat == Config.cachePageBytes && s.busOwner == .loader

/-- spec/43_dma_cache.md R212: uses no bus and is enabled independently of its owner (R200). -/
def Block.suspExpireEnabled (s : Block) : Bool :=
  s.suspend && (s.suspendCycles != 0 || Config.suspendZero == .immediate)

end Sys2Proof.Machine
end

