-- ==== Sys2Proof/Machine/Ops.lean ====
section
/-! DEFINITION. The operations every meaning shares: byte memory, scratch memory, the cartridge and the chip bus, `Sync` and the
window transaction around it, the ROM port, the system reset, and taking the next entry of the inbox. The block raises no exception
and saves no state for one (spec/60_exceptions.md R260, R266, R267), so there is no operation that takes or returns from one. -/

namespace Sys2Proof.Machine

/-- The outcomes of a step: `ok`, `stuck` and `refuse` of spec/00_scope.md R8 are next, fault and refused. -/
abbrev Result := Host.Outcome State Fault Refusal

/-! ## Byte memory -/

namespace Memory

/-- What an unlisted address reads as. DESIGN CHOICE: the spec calls an unwritten byte a draw (notes/assumptions/5.md). -/
def unlisted : Byte := 0

/-- The byte at an address. -/
def read : Memory → Nat → Byte
  | [], _ => unlisted
  | (b, v) :: m, a => if b = a then v else read m a

/-- A cell in front of a memory, left out when it says what an unlisted address reads as. -/
def cons (a : Nat) (v : Byte) (m : Memory) : Memory := if v = unlisted then m else (a, v) :: m

/-- The memory with one byte written, in canonical form. -/
def write : Memory → Nat → Byte → Memory
  | [], a, d => cons a d []
  | (b, v) :: m, a, d =>
    if a < b then cons a d ((b, v) :: m)
    else if a = b then cons a d m
    else (b, v) :: write m a d

/-- The canonical form of a memory of `size` bytes: addresses strictly rising and below `size`, no cell equal to what an unlisted
address reads as. -/
abbrev wf (size : Nat) (m : Memory) : Prop :=
  m.Pairwise (fun c c' => c.1 < c'.1) ∧ ∀ c ∈ m, c.1 < size ∧ c.2 ≠ unlisted

/-- The memory of `size` bytes that holds the given cells, a later one over an earlier. -/
def ofCells (size : Nat) (cells : List Host.Cell) : Memory :=
  cells.foldl (fun m c => if c.1 < size then write m c.1 c.2 else m) []

end Memory

/-! ## Scratch memory -/

/-- `ScratchRead(i)`: the byte, and 0 out of range (spec/40_bus_dispatch.md R105, R106). -/
def Block.scratchRead (s : Block) (i : BitVec 12) : Byte :=
  if i.toNat < Config.scratchSize then Memory.read s.scratch i.toNat else 0

/-- `ScratchWrite(i, d)`: the byte, and nothing out of range (spec/40_bus_dispatch.md R107, R108). -/
def Block.scratchWrite (s : Block) (i : BitVec 12) (d : Byte) : Block :=
  if i.toNat < Config.scratchSize then { s with scratch := Memory.write s.scratch i.toNat d } else s

/-! ## Trace and synchronisation -/

/-- Put an event at the end of the trace. -/
def State.emit (s : State) (e : BusEvent) : State := { s with trace := s.trace ++ [e] }

/-- Replace `S`. -/
def State.setBlk (s : State) (b : Block) : State := { s with blk := b }

/-- The one `Sync(Host)` of a window transaction, left out by a debug access: an event, no change of `S`
(spec/40_bus_dispatch.md R101 to R103). -/
def State.syncFor (s : State) (a : Access) : State := if a.dbg then s else s.emit (.sync .host)

/-- A window read: `Sync`, then the value, which changes nothing of `S` (spec/40_bus_dispatch.md R100, spec/20_memory.md R65). -/
def windowRead (a : Access) (value : Block → Byte) (s : State) : Result :=
  let s := s.syncFor a
  .next (s.emit (.readData (value s.blk)))

/-- A window write: `Sync`, then the effect (spec/40_bus_dispatch.md R100). -/
def windowEffect (a : Access) (effect : State → State) (s : State) : Result := .next (effect (s.syncFor a))

/-- A window write whose effect is on `S` alone, as every one's is but the lock write's. -/
def windowWrite (a : Access) (effect : Block → Block) (s : State) : Result := windowEffect a (fun s => s.setBlk (effect s.blk)) s

/-! ## The cartridge and the chip bus -/

/-- The byte the cartridge collaborator answers to a read of `a`: the next one it was given, else a free value
(spec/93_implementation_defined.md U9; notes/assumptions/7.md). -/
def State.cartAnswer (s : State) (a : Addr) : Byte :=
  match s.cartIn with
  | v :: _ => v
  | [] => Config.cartByte s.draws a

/-- The state after that read. -/
def State.cartTaken (s : State) (a : Addr) : State :=
  let e := BusEvent.cartRead a (s.cartAnswer a)
  match s.cartIn with
  | _ :: rest => { s with cartIn := rest, trace := s.trace ++ [e] }
  | [] => { s with draws := s.draws + 1, trace := s.trace ++ [e] }

/-- `ChipBusRead(a)`: the byte and the state after it; none where the address is in control space (spec/20_memory.md R70). -/
def chipBusRead (a : Addr) (s : State) : Option (Byte × State) :=
  match route a with
  | .scratch i => some (s.blk.scratchRead i, s)
  | .control => none
  | .cartridge => some (s.cartAnswer a, s.cartTaken a)

/-- `ChipBusWrite(a, v)`: none where the address is in control space; a write to the cartridge has its effect outside the block, and
is an event of the trace (spec/20_memory.md R70). -/
def chipBusWrite (a : Addr) (v : Byte) (s : State) : Option State :=
  match route a with
  | .scratch i => some (s.setBlk (s.blk.scratchWrite i v))
  | .control => none
  | .cartridge => some (s.emit (.cartWrite a v))

/-! ## The ROM port and the speed query -/

/-- The byte of a pass-through read, from cartridge ROM (spec/40_bus_dispatch.md R111, R114). -/
def romPassThrough (addr : Addr) (s : State) : State := (s.cartTaken addr).emit (.readData (s.cartAnswer addr))

/-- `RomPortRead(ctx, addr)` (spec/40_bus_dispatch.md R111 to R114). -/
def romPortRead (ctx : Ctx) (addr : Addr) (s : State) : State :=
  match ctx with
  | .chip => romPassThrough addr s
  | .host =>
    let s := s.emit (.sync .host)
    if s.blk.romPassCond then romPassThrough addr s
    else if vectorWindow addr then s.emit (.readData (s.blk.vector[(addr.extractLsb' 0 5).toNat]))
    else s.emit (.readData 0)

/-- `Speed(addr)`: the RAM test first (spec/40_bus_dispatch.md R115). -/
def Block.speedClass (s : Block) (addr : Addr) : BitVec 3 :=
  if Config.isCartRAM addr then s.ramSpeed else if Config.isCartROM addr then s.romSpeed else 0

/-! ## The Engine's events -/

/-- An Engine event happens only while `engineGrant` holds (spec/44_run_state.md R242) and the Engine is not stuck
(spec/43_dma_cache.md R210). -/
def whenGranted (event : State → Result) (s : State) : Result :=
  if !s.blk.engineGrant then .fault .engineNotGranted else if s.engineStuck then .fault .engineStuck else event s

/-- A stuck Engine goes on when the host unlocks a bank: the lock write `d`, while Halted, leaves some lock bit 0
(spec/43_dma_cache.md R210, spec/42_register_write.md R175; notes/assumptions/19.md). -/
def State.freeEngine (s : State) (d : Byte) : State :=
  if s.blk.halt && !(d.getLsbD 0 && d.getLsbD 1) then { s with engineStuck := false } else s

/-! ## Reset -/

/-- The bank contents and tag a reset draws (spec/10_state.md R46). -/
def drawnBank (cells : List Host.Cell) (page : BitVec 15) : BankState :=
  { BankState.reset with mem := Memory.ofCells Config.cachePageBytes cells, page := page }

/-- `S` right after an initialisation that draws `d` (spec/70_reset_and_hazards.md R280): the fields of decision D26 and `halt` as R46
gives them, every other field drawn. -/
def resetDraw (d : ResetDraw) : Block :=
  { Block.reset with
    dmaSource := d.dmaSource, dmaLength := d.dmaLength, dmaTarget := d.dmaTarget, programOffset := d.programOffset,
    pageNumber := d.pageNumber, programCounter := d.programCounter, vector := d.vector, gpr := d.gpr,
    scratch := Memory.ofCells Config.scratchSize d.scratch, pcFull := d.pcFull, dmaLatch := d.dmaLatch, dmaCur := d.dmaCur,
    cload := d.cload, bank0 := drawnBank d.cacheMem0 d.tagPage0, bank1 := drawnBank d.cacheMem1 d.tagPage1 }

/-- A host-system reset after initialisation: rule R280 again if `SystemResetReinit`, which leaves both banks unlocked and so no Engine
stuck; else nothing (spec/70_reset_and_hazards.md R282). -/
def systemReset (d : ResetDraw) (s : State) : State :=
  if Config.systemResetReinit then { s with blk := resetDraw d, engineStuck := false } else s

/-! ## Taking the next entry -/

/-- The `stuck` outcome leaves the Engine stuck if it is that of a locked miss (spec/43_dma_cache.md R210); every other means only that
this step is not enabled. -/
def Fault.sticks : Fault → Bool
  | .lockedMissStuck _ => true
  | .controllerStepNotEnabled _ | .engineNotGranted | .engineStuck | .enginePageHeld _ | .engineBankInvalid _ => false

/-- A step that is `stuck` is not taken and the machine goes on: the trace names it, a locked miss leaves the Engine stuck, and nothing
else changes (spec/00_scope.md R8, spec/60_exceptions.md R262; notes/assumptions/6.md). -/
def passStuck (s : State) : Result → Result
  | .next t => .next t
  | .fault f => .next ({ s with engineStuck := s.engineStuck || f.sticks }.emit (.stuck f))
  | .refused r => .refused r

/-- The next entry of the inbox, and the state without it. -/
def takeEntry (s : State) : Option (Entry × State) :=
  match s.inbox with
  | [] => none
  | e :: rest => some (e, { s with inbox := rest })

end Sys2Proof.Machine
end

