-- ==== Sys2Proof/Machine/Controller.lean ====
section
/-! DEFINITION. The Controller's steps: the DMA engine, the cache loader and the suspend timer (spec/43_dma_cache.md). Each is taken
only when its enabling condition holds (Machine/Flags.lean); otherwise the step is `stuck` (spec/00_scope.md R8). -/

namespace Sys2Proof.Machine

/-- A Controller step is taken only when it is enabled. -/
def whenEnabled (enabled : Bool) (k : StepKind) (step : Result) : Result :=
  if enabled then step else .fault (.controllerStepNotEnabled k)

/-- DMA-START's effect: the address generator takes the latch (R201). -/
def Block.startDma (s : Block) : Block :=
  { s with
    dmaActive := true
    dmaPending := false
    dmaCur := { src := s.dmaLatch.src, tgt := s.dmaLatch.tgt, remaining := s.dmaLatch.len.setWidth 17 } }

/-- The address generator after a byte: both addresses advance modulo 2^24, the count falls by one (R202). -/
def DmaCur.advance (c : DmaCur) : DmaCur := { src := c.src + 1, tgt := c.tgt + 1, remaining := c.remaining - 1 }

/-- DMA-BYTE's effect: one byte copied over the chip bus, refused where an address is in control space (R202, R211). -/
def moveDmaByte (s : State) : Result :=
  match chipBusRead s.blk.dmaCur.src s with
  | none => .refused .dmaControlSpace
  | some (v, s1) =>
    match chipBusWrite s.blk.dmaCur.tgt v s1 with
    | none => .refused .dmaControlSpace
    | some s2 => .next (s2.setBlk { s2.blk with dmaCur := s2.blk.dmaCur.advance })

/-- The loader after a byte `v`: stored at the count, address and count advanced (R205). -/
def Block.storeLoaded (s : Block) (v : Byte) : Block :=
  let c := s.cload
  let x := s.bank c.bank
  let s := s.setBank c.bank { x with mem := Memory.write x.mem c.count.toNat v }
  { s with cload := { c with addr := c.addr + 1, count := c.count + 1 } }

/-- CLOAD-BYTE's effect: one byte read over the chip bus, refused where the address is in control space (R205, R211). -/
def moveLoadByte (s : State) : Result :=
  match chipBusRead s.blk.cload.addr s with
  | none => .refused .dmaControlSpace
  | some (v, s1) => .next (s1.setBlk (s1.blk.storeLoaded v))

/-- CLOAD-DONE's effect: the bank's tag is valid for the page; a fill makes the bank the active one (R207). -/
def Block.finishLoad (s : Block) : Block :=
  let c := s.cload
  let s := s.setBank c.bank { s.bank c.bank with valid := true, page := c.page }
  { s with cacheLoading := false, cachePage := if c.fill then c.bank else s.cachePage }

/-- DMA-START (R201). -/
def execDmaStart (s : State) : Result :=
  whenEnabled s.blk.dmaStartEnabled .dmaStart (.next (s.setBlk s.blk.startDma))

/-- DMA-BYTE (R202). -/
def execDmaByte (s : State) : Result := whenEnabled s.blk.dmaByteEnabled .dmaByte (moveDmaByte s)

/-- DMA-DONE (R203): the DMA registers keep the programmed values. -/
def execDmaDone (s : State) : Result :=
  whenEnabled s.blk.dmaDoneEnabled .dmaDone (.next (s.setBlk { s.blk with dmaActive := false }))

/-- CLOAD-BYTE (R205). -/
def execCloadByte (s : State) : Result := whenEnabled s.blk.cloadByteEnabled .cloadByte (moveLoadByte s)

/-- CLOAD-DONE (R207). -/
def execCloadDone (s : State) : Result :=
  whenEnabled s.blk.cloadDoneEnabled .cloadDone (.next (s.setBlk s.blk.finishLoad))

/-- SUSP-EXPIRE (R212). -/
def execSuspExpire (s : State) : Result :=
  whenEnabled s.blk.suspExpireEnabled .suspExpire (.next (s.setBlk { s.blk with suspend := false, suspendCycles := 0 }))

end Sys2Proof.Machine
end

