-- ==== Sys2Proof/Machine/RegisterWrite.lean ====
section
/-! DEFINITION. Register-file writes (spec/42_register_write.md). A store happens in both run states, except the lock store;
a side effect happens only while Halted (R161). -/

namespace Sys2Proof.Machine

/-- The DMA trigger of R170: the pending flag, and the latch with the new target. -/
def Block.armDma (s : Block) : Block :=
  { s with dmaPending := true, dmaLatch := { src := s.dmaSource, len := s.dmaLength, tgt := s.dmaTarget } }

/-- Start a load of page `p` into bank `b` (R171, and spec/44_run_state.md R246 with `fill` set): the bank's tag is invalid until the
load completes. -/
def Block.startLoad (s : Block) (b : Bank) (p : BitVec 15) (fill : Bool) : Block :=
  let s := s.setBank b { s.bank b with valid := false }
  { s with
    cacheLoading := true
    cload := { bank := b, page := p, addr := cacheSourceAddr s.programOffset p, count := 0, fill := fill } }

/-- A write of the DMA target's high slot: the store, and the trigger if Halted (R170). -/
def Block.writeDmaTargetHigh (s : Block) (d : Byte) : Block :=
  let s := { s with dmaTarget := mergeSlot s.dmaTarget 2 d }
  if s.halt then s.armDma else s

/-- A write of the preload byte: the store, and the load of the bank it names if Halted (R171). -/
def Block.writePreload (s : Block) (d : Byte) : Block :=
  let s := { s with cachePreload := d.getLsbD 0 }
  if s.halt then s.startLoad (Bank.ofBit (d.getLsbD 0)) s.pageNumber false else s

/-- A write of the lock byte: both lock bits if Halted, else nothing (R175). -/
def Block.writeLocks (s : Block) (d : Byte) : Block :=
  if s.halt then
    { s with bank0 := { s.bank0 with lock := d.getLsbD 0 }, bank1 := { s.bank1 with lock := d.getLsbD 1 } }
  else s

/-- A write of the program-counter byte: the store, and the run start if Halted (R178). -/
def Block.writePc (s : Block) (d : Byte) : Block :=
  let s := { s with programCounter := d }
  if s.halt then { s with pcFull := entryAddress s.pageNumber d, halt := false, cachePage := .b0 } else s

/-- A write of suspend address `k`, in either run state (R184 to R191). -/
def Block.suspendFor (s : Block) (k : Nat) : Block := { s with suspend := true, suspendCycles := suspendCount k }

/-- A write of one byte slot of a GPR (R196, R197). -/
def Block.writeGprByte (s : Block) (m : Fin 48) (d : Byte) : Block :=
  { s with gpr := s.gpr.set (gprIndex m) (mergeSlot s.gpr[gprIndex m] (gprSlot m) d) }

/-- WR_UNMAPPED_1C00, offsets 0x1C00–0x1DFF (R198). -/
def execWrUnmapped1C00 (a : Access) (_k : BitVec 9) (_d : Byte) (s : State) : Result :=
  windowWrite a (fun b => b) s

/-- WR_UNMAPPED_1E00, offsets 0x1E00–0x1EFF (R198). -/
def execWrUnmapped1E00 (a : Access) (_k : BitVec 8) (_d : Byte) (s : State) : Result :=
  windowWrite a (fun b => b) s

/-- WR_UNMAPPED_1F00, offsets 0x1F00–0x1F3F (R198). -/
def execWrUnmapped1F00 (a : Access) (_k : BitVec 6) (_d : Byte) (s : State) : Result :=
  windowWrite a (fun b => b) s

/-- WR_DMASRC_L, offset 0x1F40 (R163). -/
def execWrDmasrcL (a : Access) (d : Byte) (s : State) : Result :=
  windowWrite a (fun b => { b with dmaSource := mergeSlot b.dmaSource 0 d }) s

/-- WR_DMASRC_M, offset 0x1F41 (R164). -/
def execWrDmasrcM (a : Access) (d : Byte) (s : State) : Result :=
  windowWrite a (fun b => { b with dmaSource := mergeSlot b.dmaSource 1 d }) s

/-- WR_DMASRC_H, offset 0x1F42 (R165). -/
def execWrDmasrcH (a : Access) (d : Byte) (s : State) : Result :=
  windowWrite a (fun b => { b with dmaSource := mergeSlot b.dmaSource 2 d }) s

/-- WR_DMALEN_L, offset 0x1F43 (R166). -/
def execWrDmalenL (a : Access) (d : Byte) (s : State) : Result :=
  windowWrite a (fun b => { b with dmaLength := mergeSlot b.dmaLength 0 d }) s

/-- WR_DMALEN_H, offset 0x1F44 (R167). -/
def execWrDmalenH (a : Access) (d : Byte) (s : State) : Result :=
  windowWrite a (fun b => { b with dmaLength := mergeSlot b.dmaLength 1 d }) s

/-- WR_DMATGT_L, offset 0x1F45 (R168). -/
def execWrDmatgtL (a : Access) (d : Byte) (s : State) : Result :=
  windowWrite a (fun b => { b with dmaTarget := mergeSlot b.dmaTarget 0 d }) s

/-- WR_DMATGT_M, offset 0x1F46 (R169). -/
def execWrDmatgtM (a : Access) (d : Byte) (s : State) : Result :=
  windowWrite a (fun b => { b with dmaTarget := mergeSlot b.dmaTarget 1 d }) s

/-- WR_DMATGT_H, offset 0x1F47 (R170). -/
def execWrDmatgtH (a : Access) (d : Byte) (s : State) : Result :=
  windowWrite a (fun b => b.writeDmaTargetHigh d) s

/-- WR_CPRELOAD, offset 0x1F48 (R171). -/
def execWrCpreload (a : Access) (d : Byte) (s : State) : Result :=
  windowWrite a (fun b => b.writePreload d) s

/-- WR_PROGOFS_L, offset 0x1F49 (R172). -/
def execWrProgofsL (a : Access) (d : Byte) (s : State) : Result :=
  windowWrite a (fun b => { b with programOffset := mergeSlot b.programOffset 0 d }) s

/-- WR_PROGOFS_M, offset 0x1F4A (R173). -/
def execWrProgofsM (a : Access) (d : Byte) (s : State) : Result :=
  windowWrite a (fun b => { b with programOffset := mergeSlot b.programOffset 1 d }) s

/-- WR_PROGOFS_H, offset 0x1F4B (R174). -/
def execWrProgofsH (a : Access) (d : Byte) (s : State) : Result :=
  windowWrite a (fun b => { b with programOffset := mergeSlot b.programOffset 2 d }) s

/-- WR_CACHELOCK, offset 0x1F4C (R175); unlocking a bank lets a stuck Engine go on (spec/43_dma_cache.md R210). -/
def execWrCachelock (a : Access) (d : Byte) (s : State) : Result :=
  windowEffect a (fun s => (s.freeEngine d).setBlk (s.blk.writeLocks d)) s

/-- WR_PAGE_L, offset 0x1F4D (R176). -/
def execWrPageL (a : Access) (d : Byte) (s : State) : Result :=
  windowWrite a (fun b => { b with pageNumber := mergeSlot b.pageNumber 0 d }) s

/-- WR_PAGE_H, offset 0x1F4E (R177). -/
def execWrPageH (a : Access) (d : Byte) (s : State) : Result :=
  windowWrite a (fun b => { b with pageNumber := mergeSlot b.pageNumber 1 d }) s

/-- WR_PC, offset 0x1F4F (R178). -/
def execWrPc (a : Access) (d : Byte) (s : State) : Result :=
  windowWrite a (fun b => b.writePc d) s

/-- WR_SPEED, offset 0x1F50 (R179). -/
def execWrSpeed (a : Access) (d : Byte) (s : State) : Result :=
  windowWrite a (fun b => { b with ramSpeed := ramSpeedOf d, romSpeed := romSpeedOf d }) s

/-- WR_R1F51, offset 0x1F51 (R180). -/
def execWrR1F51 (a : Access) (d : Byte) (s : State) : Result :=
  windowWrite a (fun b => { b with r1f51 := d.getLsbD 0 }) s

/-- WR_R1F52, offset 0x1F52 (R181). -/
def execWrR1F52 (a : Access) (d : Byte) (s : State) : Result :=
  windowWrite a (fun b => { b with r1f52 := d.getLsbD 0 }) s

/-- WR_HALT, offset 0x1F53 (R182). -/
def execWrHalt (a : Access) (_d : Byte) (s : State) : Result :=
  windowWrite a (fun b => { b with halt := true }) s

/-- WR_NOP_1F54, offset 0x1F54 (R183). -/
def execWrNop1F54 (a : Access) (_d : Byte) (s : State) : Result :=
  windowWrite a (fun b => b) s

/-- WR_SUSPEND0, offset 0x1F55 (R184). -/
def execWrSuspend0 (a : Access) (_d : Byte) (s : State) : Result :=
  windowWrite a (fun b => b.suspendFor 0) s

/-- WR_SUSPEND1, offset 0x1F56 (R185). -/
def execWrSuspend1 (a : Access) (_d : Byte) (s : State) : Result :=
  windowWrite a (fun b => b.suspendFor 1) s

/-- WR_SUSPEND2, offset 0x1F57 (R186). -/
def execWrSuspend2 (a : Access) (_d : Byte) (s : State) : Result :=
  windowWrite a (fun b => b.suspendFor 2) s

/-- WR_SUSPEND3, offset 0x1F58 (R187). -/
def execWrSuspend3 (a : Access) (_d : Byte) (s : State) : Result :=
  windowWrite a (fun b => b.suspendFor 3) s

/-- WR_SUSPEND4, offset 0x1F59 (R188). -/
def execWrSuspend4 (a : Access) (_d : Byte) (s : State) : Result :=
  windowWrite a (fun b => b.suspendFor 4) s

/-- WR_SUSPEND5, offset 0x1F5A (R189). -/
def execWrSuspend5 (a : Access) (_d : Byte) (s : State) : Result :=
  windowWrite a (fun b => b.suspendFor 5) s

/-- WR_SUSPEND6, offset 0x1F5B (R190). -/
def execWrSuspend6 (a : Access) (_d : Byte) (s : State) : Result :=
  windowWrite a (fun b => b.suspendFor 6) s

/-- WR_SUSPEND7, offset 0x1F5C (R191). -/
def execWrSuspend7 (a : Access) (_d : Byte) (s : State) : Result :=
  windowWrite a (fun b => b.suspendFor 7) s

/-- WR_UNSUSPEND, offset 0x1F5D (R192). -/
def execWrUnsuspend (a : Access) (_d : Byte) (s : State) : Result :=
  windowWrite a (fun b => { b with suspend := false }) s

/-- WR_NOP_1F5E, offset 0x1F5E (R193). -/
def execWrNop1F5E (a : Access) (_d : Byte) (s : State) : Result :=
  windowWrite a (fun b => b) s

/-- WR_NOP_1F5F, offset 0x1F5F (R194). -/
def execWrNop1F5F (a : Access) (_d : Byte) (s : State) : Result :=
  windowWrite a (fun b => b) s

/-- WR_VECTOR, offsets 0x1F60–0x1F7F (R195). -/
def execWrVector (a : Access) (vi : BitVec 5) (d : Byte) (s : State) : Result :=
  windowWrite a (fun b => { b with vector := b.vector.set vi.toNat d }) s

/-- WR_GPR_A0, offsets 0x1F80–0x1F9F (R196). -/
def execWrGprA0 (a : Access) (m : BitVec 5) (d : Byte) (s : State) : Result :=
  windowWrite a (fun b => b.writeGprByte (gprLowPart m) d) s

/-- WR_GPR_A1, offsets 0x1FA0–0x1FAF (R196). -/
def execWrGprA1 (a : Access) (m : BitVec 4) (d : Byte) (s : State) : Result :=
  windowWrite a (fun b => b.writeGprByte (gprHighPart m) d) s

/-- WR_UNMAPPED_1FB0, offsets 0x1FB0–0x1FBF (R198). -/
def execWrUnmapped1FB0 (a : Access) (_k : BitVec 4) (_d : Byte) (s : State) : Result :=
  windowWrite a (fun b => b) s

/-- WR_GPR_B0, offsets 0x1FC0–0x1FDF (R197). -/
def execWrGprB0 (a : Access) (m : BitVec 5) (d : Byte) (s : State) : Result :=
  windowWrite a (fun b => b.writeGprByte (gprLowPart m) d) s

/-- WR_GPR_B1, offsets 0x1FE0–0x1FEF (R197). -/
def execWrGprB1 (a : Access) (m : BitVec 4) (d : Byte) (s : State) : Result :=
  windowWrite a (fun b => b.writeGprByte (gprHighPart m) d) s

/-- WR_UNMAPPED_1FF0, offsets 0x1FF0–0x1FFF (R198). -/
def execWrUnmapped1FF0 (a : Access) (_k : BitVec 4) (_d : Byte) (s : State) : Result :=
  windowWrite a (fun b => b) s

end Sys2Proof.Machine
end

