-- ==== Sys2Proof/Machine/Engine.lean ====
section
/-! DEFINITION. The events through which the out-of-scope Engine takes part (spec/44_run_state.md R242 to R248), each only while
`engineGrant` holds and the Engine is not stuck after a locked miss. -/

namespace Sys2Proof.Machine

/-- ENG-FILL's effect: a load of page `p` into the bank `FillBank` chooses; with both banks locked, `LockedMissPolicy`
(R246, spec/43_dma_cache.md R209, R210). -/
def requestFill (p : BitVec 15) (s : State) : Result :=
  if s.blk.pageHeld p then .fault (.enginePageHeld p)
  else
    match s.blk.fillBank with
    | some b => .next (s.setBlk (s.blk.startLoad b p true))
    | none =>
      match Config.lockedMissPolicy with
      | .stuck => .fault (.lockedMissStuck p)
      | .refuse => .refused (.lockedMiss p)

/-- ENG-BUS's effect: an access over the chip bus, refused in control space (R248). -/
def engineBus (acc : BusAccess) (s : State) : Result :=
  match acc with
  | .read addr =>
    match chipBusRead addr s with
    | none => .refused .dmaControlSpace
    | some (v, s1) => .next (s1.emit (.engineData v))
  | .write addr d =>
    match chipBusWrite addr d s with
    | none => .refused .dmaControlSpace
    | some s1 => .next s1

/-- ENG-HALT (R244). -/
def execEngHalt (s : State) : Result := whenGranted (fun s => .next (s.setBlk { s.blk with halt := true })) s

/-- ENG-GPR i, v: a whole register in one step (R245). -/
def execEngGpr (i : BitVec 4) (v : BitVec 24) (s : State) : Result :=
  whenGranted (fun s => .next (s.setBlk { s.blk with gpr := s.blk.gpr.set i.toNat v })) s

/-- ENG-FILL p (R246). -/
def execEngFill (p : BitVec 15) (s : State) : Result := whenGranted (requestFill p) s

/-- ENG-PAGE b: only to a bank whose tag is valid (R247). -/
def execEngPage (b : Bank) (s : State) : Result :=
  whenGranted (fun s =>
    if (s.blk.bank b).valid then .next (s.setBlk { s.blk with cachePage := b }) else .fault (.engineBankInvalid b)) s

/-- ENG-BUS W, addr, d (R248). -/
def execEngBus (acc : BusAccess) (s : State) : Result := whenGranted (engineBus acc) s

end Sys2Proof.Machine
end

