-- ==== Sys2Proof/Machine/RegisterRead.lean ====
section
/-! DEFINITION. Register-file reads (spec/41_register_read.md). No read is gated by the run state and none changes `S` (R155,
spec/20_memory.md R65). -/

namespace Sys2Proof.Machine

/-- RD_UNMAPPED_1C00, offsets 0x1C00–0x1DFF (R154). -/
def execRdUnmapped1C00 (a : Access) (_k : BitVec 9) (s : State) : Result :=
  windowRead a (fun _ => 0) s

/-- RD_UNMAPPED_1E00, offsets 0x1E00–0x1EFF (R154). -/
def execRdUnmapped1E00 (a : Access) (_k : BitVec 8) (s : State) : Result :=
  windowRead a (fun _ => 0) s

/-- RD_UNMAPPED_1F00, offsets 0x1F00–0x1F3F (R154). -/
def execRdUnmapped1F00 (a : Access) (_k : BitVec 6) (s : State) : Result :=
  windowRead a (fun _ => 0) s

/-- RD_DMASRC_L, offset 0x1F40 (R131). -/
def execRdDmasrcL (a : Access) (s : State) : Result :=
  windowRead a (fun b => byteSlot b.dmaSource 0) s

/-- RD_DMASRC_M, offset 0x1F41 (R132). -/
def execRdDmasrcM (a : Access) (s : State) : Result :=
  windowRead a (fun b => byteSlot b.dmaSource 1) s

/-- RD_DMASRC_H, offset 0x1F42 (R133). -/
def execRdDmasrcH (a : Access) (s : State) : Result :=
  windowRead a (fun b => byteSlot b.dmaSource 2) s

/-- RD_DMALEN_L, offset 0x1F43 (R134). -/
def execRdDmalenL (a : Access) (s : State) : Result :=
  windowRead a (fun b => byteSlot b.dmaLength 0) s

/-- RD_DMALEN_H, offset 0x1F44 (R135). -/
def execRdDmalenH (a : Access) (s : State) : Result :=
  windowRead a (fun b => byteSlot b.dmaLength 1) s

/-- RD_DMATGT_L, offset 0x1F45 (R136). -/
def execRdDmatgtL (a : Access) (s : State) : Result :=
  windowRead a (fun b => byteSlot b.dmaTarget 0) s

/-- RD_DMATGT_M, offset 0x1F46 (R137). -/
def execRdDmatgtM (a : Access) (s : State) : Result :=
  windowRead a (fun b => byteSlot b.dmaTarget 1) s

/-- RD_DMATGT_H, offset 0x1F47 (R138). -/
def execRdDmatgtH (a : Access) (s : State) : Result :=
  windowRead a (fun b => byteSlot b.dmaTarget 2) s

/-- RD_CPRELOAD, offset 0x1F48 (R139). -/
def execRdCpreload (a : Access) (s : State) : Result :=
  windowRead a (fun b => flagByte b.cachePreload) s

/-- RD_PROGOFS_L, offset 0x1F49 (R140). -/
def execRdProgofsL (a : Access) (s : State) : Result :=
  windowRead a (fun b => byteSlot b.programOffset 0) s

/-- RD_PROGOFS_M, offset 0x1F4A (R141). -/
def execRdProgofsM (a : Access) (s : State) : Result :=
  windowRead a (fun b => byteSlot b.programOffset 1) s

/-- RD_PROGOFS_H, offset 0x1F4B (R142). -/
def execRdProgofsH (a : Access) (s : State) : Result :=
  windowRead a (fun b => byteSlot b.programOffset 2) s

/-- RD_CACHELOCK, offset 0x1F4C (R143). -/
def execRdCachelock (a : Access) (s : State) : Result :=
  windowRead a (fun b => lockByte b.bank1.lock b.bank0.lock) s

/-- RD_PAGE_L, offset 0x1F4D (R144). -/
def execRdPageL (a : Access) (s : State) : Result :=
  windowRead a (fun b => byteSlot b.pageNumber 0) s

/-- RD_PAGE_H, offset 0x1F4E (R145). -/
def execRdPageH (a : Access) (s : State) : Result :=
  windowRead a (fun b => byteSlot b.pageNumber 1) s

/-- RD_PC, offset 0x1F4F (R146). -/
def execRdPc (a : Access) (s : State) : Result :=
  windowRead a (fun b => b.programCounter) s

/-- RD_SPEED, offset 0x1F50 (R147). -/
def execRdSpeed (a : Access) (s : State) : Result :=
  windowRead a (fun b => speedByte b.romSpeed b.ramSpeed) s

/-- RD_R1F51, offset 0x1F51 (R148). -/
def execRdR1F51 (a : Access) (s : State) : Result :=
  windowRead a (fun b => flagByte b.r1f51) s

/-- RD_R1F52, offset 0x1F52 (R149). -/
def execRdR1F52 (a : Access) (s : State) : Result :=
  windowRead a (fun b => flagByte b.r1f52) s

/-- RD_STATUS_1F53, offset 0x1F53 (R150). -/
def execRdStatus1F53 (a : Access) (s : State) : Result :=
  windowRead a (fun b => b.status) s

/-- RD_STATUS_1F54, offset 0x1F54 (R150). -/
def execRdStatus1F54 (a : Access) (s : State) : Result :=
  windowRead a (fun b => b.status) s

/-- RD_STATUS_1F55, offset 0x1F55 (R150). -/
def execRdStatus1F55 (a : Access) (s : State) : Result :=
  windowRead a (fun b => b.status) s

/-- RD_STATUS_1F56, offset 0x1F56 (R150). -/
def execRdStatus1F56 (a : Access) (s : State) : Result :=
  windowRead a (fun b => b.status) s

/-- RD_STATUS_1F57, offset 0x1F57 (R150). -/
def execRdStatus1F57 (a : Access) (s : State) : Result :=
  windowRead a (fun b => b.status) s

/-- RD_STATUS_1F58, offset 0x1F58 (R150). -/
def execRdStatus1F58 (a : Access) (s : State) : Result :=
  windowRead a (fun b => b.status) s

/-- RD_STATUS_1F59, offset 0x1F59 (R150). -/
def execRdStatus1F59 (a : Access) (s : State) : Result :=
  windowRead a (fun b => b.status) s

/-- RD_STATUS_1F5A, offset 0x1F5A (R150). -/
def execRdStatus1F5A (a : Access) (s : State) : Result :=
  windowRead a (fun b => b.status) s

/-- RD_STATUS_1F5B, offset 0x1F5B (R150). -/
def execRdStatus1F5B (a : Access) (s : State) : Result :=
  windowRead a (fun b => b.status) s

/-- RD_STATUS_1F5C, offset 0x1F5C (R150). -/
def execRdStatus1F5C (a : Access) (s : State) : Result :=
  windowRead a (fun b => b.status) s

/-- RD_STATUS_1F5D, offset 0x1F5D (R150). -/
def execRdStatus1F5D (a : Access) (s : State) : Result :=
  windowRead a (fun b => b.status) s

/-- RD_STATUS_1F5E, offset 0x1F5E (R150). -/
def execRdStatus1F5E (a : Access) (s : State) : Result :=
  windowRead a (fun b => b.status) s

/-- RD_STATUS_1F5F, offset 0x1F5F (R150). -/
def execRdStatus1F5F (a : Access) (s : State) : Result :=
  windowRead a (fun b => b.status) s

/-- RD_VECTOR, offsets 0x1F60–0x1F7F (R151). -/
def execRdVector (a : Access) (vi : BitVec 5) (s : State) : Result :=
  windowRead a (fun b => b.vector[vi.toNat]) s

/-- RD_GPR_A0, offsets 0x1F80–0x1F9F (R152). -/
def execRdGprA0 (a : Access) (m : BitVec 5) (s : State) : Result :=
  windowRead a (fun b => byteSlot b.gpr[gprIndex (gprLowPart m)] (gprSlot (gprLowPart m))) s

/-- RD_GPR_A1, offsets 0x1FA0–0x1FAF (R152). -/
def execRdGprA1 (a : Access) (m : BitVec 4) (s : State) : Result :=
  windowRead a (fun b => byteSlot b.gpr[gprIndex (gprHighPart m)] (gprSlot (gprHighPart m))) s

/-- RD_UNMAPPED_1FB0, offsets 0x1FB0–0x1FBF (R154). -/
def execRdUnmapped1FB0 (a : Access) (_k : BitVec 4) (s : State) : Result :=
  windowRead a (fun _ => 0) s

/-- RD_GPR_B0, offsets 0x1FC0–0x1FDF (R153). -/
def execRdGprB0 (a : Access) (m : BitVec 5) (s : State) : Result :=
  windowRead a (fun b => byteSlot b.gpr[gprIndex (gprLowPart m)] (gprSlot (gprLowPart m))) s

/-- RD_GPR_B1, offsets 0x1FE0–0x1FEF (R153). -/
def execRdGprB1 (a : Access) (m : BitVec 4) (s : State) : Result :=
  windowRead a (fun b => byteSlot b.gpr[gprIndex (gprHighPart m)] (gprSlot (gprHighPart m))) s

/-- RD_UNMAPPED_1FF0, offsets 0x1FF0–0x1FFF (R154). -/
def execRdUnmapped1FF0 (a : Access) (_k : BitVec 4) (s : State) : Result :=
  windowRead a (fun _ => 0) s

end Sys2Proof.Machine
end

