-- ==== Sys2Proof/Machine/RomSpeed.lean ====
section
/-! DEFINITION. The ROM pass-through port and the speed query (spec/40_bus_dispatch.md R111 to R116). -/

namespace Sys2Proof.Machine

/-- ROM_READ: pass-through, vector substitution, or the blocked default 0 (R111 to R114). -/
def execRomRead (ctx : Ctx) (addr : Addr) (s : State) : Result := .next (romPortRead ctx addr s)

/-- SPEED_QUERY: no `Sync`, no change of `S`, a 3-bit class (R115, R116). -/
def execSpeedQuery (addr : Addr) (s : State) : Result := .next (s.emit (.speedClass (s.blk.speedClass addr)))

end Sys2Proof.Machine
end

