-- ==== Sys2Proof/Machine/Scratch.lean ====
section
/-! DEFINITION. Scratch-memory transactions (spec/40_bus_dispatch.md R105 to R108). The scratch index is `o[11:0]`
(spec/30_encoding.md R82): the row's fixed bits of it, then the bits its mask frees. -/

namespace Sys2Proof.Machine

/-- RD_SCRATCH_0000, offsets 0x0000–0x07FF (R105). -/
def execRdScratch0000 (a : Access) (i : BitVec 11) (s : State) : Result :=
  windowRead a (fun b => b.scratchRead (0b0#1 ++ i)) s

/-- RD_SCRATCH_0800, offsets 0x0800–0x0BFF (R105). -/
def execRdScratch0800 (a : Access) (i : BitVec 10) (s : State) : Result :=
  windowRead a (fun b => b.scratchRead (0b10#2 ++ i)) s

/-- RD_SCRATCH_OOR, offsets 0x0C00–0x0FFF (R106). -/
def execRdScratchOor (a : Access) (k : BitVec 10) (s : State) : Result :=
  windowRead a (fun b => b.scratchRead (0b11#2 ++ k)) s

/-- RD_SCRATCH_1000, offsets 0x1000–0x17FF (R105). -/
def execRdScratch1000 (a : Access) (i : BitVec 11) (s : State) : Result :=
  windowRead a (fun b => b.scratchRead (0b0#1 ++ i)) s

/-- RD_SCRATCH_1800, offsets 0x1800–0x1BFF (R105). -/
def execRdScratch1800 (a : Access) (i : BitVec 10) (s : State) : Result :=
  windowRead a (fun b => b.scratchRead (0b10#2 ++ i)) s

/-- WR_SCRATCH_0000, offsets 0x0000–0x07FF (R107). -/
def execWrScratch0000 (a : Access) (i : BitVec 11) (d : Byte) (s : State) : Result :=
  windowWrite a (fun b => b.scratchWrite (0b0#1 ++ i) d) s

/-- WR_SCRATCH_0800, offsets 0x0800–0x0BFF (R107). -/
def execWrScratch0800 (a : Access) (i : BitVec 10) (d : Byte) (s : State) : Result :=
  windowWrite a (fun b => b.scratchWrite (0b10#2 ++ i) d) s

/-- WR_SCRATCH_OOR, offsets 0x0C00–0x0FFF (R108). -/
def execWrScratchOor (a : Access) (k : BitVec 10) (d : Byte) (s : State) : Result :=
  windowWrite a (fun b => b.scratchWrite (0b11#2 ++ k) d) s

/-- WR_SCRATCH_1000, offsets 0x1000–0x17FF (R107). -/
def execWrScratch1000 (a : Access) (i : BitVec 11) (d : Byte) (s : State) : Result :=
  windowWrite a (fun b => b.scratchWrite (0b0#1 ++ i) d) s

/-- WR_SCRATCH_1800, offsets 0x1800–0x1BFF (R107). -/
def execWrScratch1800 (a : Access) (i : BitVec 10) (d : Byte) (s : State) : Result :=
  windowWrite a (fun b => b.scratchWrite (0b10#2 ++ i) d) s

end Sys2Proof.Machine
end

