-- ==== Sys2Proof/Machine/Dispatch.lean ====
section
/-! DEFINITION. The meaning of every instruction: one arm for each row of spec/opcode_table.json, in the table's order. -/

namespace Sys2Proof.Machine

def exec (i : Instr) (s : State) : Host.Outcome State Fault Refusal :=
  match i with
  | .rdScratch0000 a ix => Sys2Proof.Machine.execRdScratch0000 a ix s
  | .rdScratch0800 a ix => Sys2Proof.Machine.execRdScratch0800 a ix s
  | .rdScratchOor a k => Sys2Proof.Machine.execRdScratchOor a k s
  | .rdScratch1000 a ix => Sys2Proof.Machine.execRdScratch1000 a ix s
  | .rdScratch1800 a ix => Sys2Proof.Machine.execRdScratch1800 a ix s
  | .rdUnmapped1C00 a k => Sys2Proof.Machine.execRdUnmapped1C00 a k s
  | .rdUnmapped1E00 a k => Sys2Proof.Machine.execRdUnmapped1E00 a k s
  | .rdUnmapped1F00 a k => Sys2Proof.Machine.execRdUnmapped1F00 a k s
  | .rdDmasrcL a => Sys2Proof.Machine.execRdDmasrcL a s
  | .rdDmasrcM a => Sys2Proof.Machine.execRdDmasrcM a s
  | .rdDmasrcH a => Sys2Proof.Machine.execRdDmasrcH a s
  | .rdDmalenL a => Sys2Proof.Machine.execRdDmalenL a s
  | .rdDmalenH a => Sys2Proof.Machine.execRdDmalenH a s
  | .rdDmatgtL a => Sys2Proof.Machine.execRdDmatgtL a s
  | .rdDmatgtM a => Sys2Proof.Machine.execRdDmatgtM a s
  | .rdDmatgtH a => Sys2Proof.Machine.execRdDmatgtH a s
  | .rdCpreload a => Sys2Proof.Machine.execRdCpreload a s
  | .rdProgofsL a => Sys2Proof.Machine.execRdProgofsL a s
  | .rdProgofsM a => Sys2Proof.Machine.execRdProgofsM a s
  | .rdProgofsH a => Sys2Proof.Machine.execRdProgofsH a s
  | .rdCachelock a => Sys2Proof.Machine.execRdCachelock a s
  | .rdPageL a => Sys2Proof.Machine.execRdPageL a s
  | .rdPageH a => Sys2Proof.Machine.execRdPageH a s
  | .rdPc a => Sys2Proof.Machine.execRdPc a s
  | .rdSpeed a => Sys2Proof.Machine.execRdSpeed a s
  | .rdR1F51 a => Sys2Proof.Machine.execRdR1F51 a s
  | .rdR1F52 a => Sys2Proof.Machine.execRdR1F52 a s
  | .rdStatus1F53 a => Sys2Proof.Machine.execRdStatus1F53 a s
  | .rdStatus1F54 a => Sys2Proof.Machine.execRdStatus1F54 a s
  | .rdStatus1F55 a => Sys2Proof.Machine.execRdStatus1F55 a s
  | .rdStatus1F56 a => Sys2Proof.Machine.execRdStatus1F56 a s
  | .rdStatus1F57 a => Sys2Proof.Machine.execRdStatus1F57 a s
  | .rdStatus1F58 a => Sys2Proof.Machine.execRdStatus1F58 a s
  | .rdStatus1F59 a => Sys2Proof.Machine.execRdStatus1F59 a s
  | .rdStatus1F5A a => Sys2Proof.Machine.execRdStatus1F5A a s
  | .rdStatus1F5B a => Sys2Proof.Machine.execRdStatus1F5B a s
  | .rdStatus1F5C a => Sys2Proof.Machine.execRdStatus1F5C a s
  | .rdStatus1F5D a => Sys2Proof.Machine.execRdStatus1F5D a s
  | .rdStatus1F5E a => Sys2Proof.Machine.execRdStatus1F5E a s
  | .rdStatus1F5F a => Sys2Proof.Machine.execRdStatus1F5F a s
  | .rdVector a vi => Sys2Proof.Machine.execRdVector a vi s
  | .rdGprA0 a m => Sys2Proof.Machine.execRdGprA0 a m s
  | .rdGprA1 a m => Sys2Proof.Machine.execRdGprA1 a m s
  | .rdUnmapped1FB0 a k => Sys2Proof.Machine.execRdUnmapped1FB0 a k s
  | .rdGprB0 a m => Sys2Proof.Machine.execRdGprB0 a m s
  | .rdGprB1 a m => Sys2Proof.Machine.execRdGprB1 a m s
  | .rdUnmapped1FF0 a k => Sys2Proof.Machine.execRdUnmapped1FF0 a k s
  | .wrScratch0000 a ix d => Sys2Proof.Machine.execWrScratch0000 a ix d s
  | .wrScratch0800 a ix d => Sys2Proof.Machine.execWrScratch0800 a ix d s
  | .wrScratchOor a k d => Sys2Proof.Machine.execWrScratchOor a k d s
  | .wrScratch1000 a ix d => Sys2Proof.Machine.execWrScratch1000 a ix d s
  | .wrScratch1800 a ix d => Sys2Proof.Machine.execWrScratch1800 a ix d s
  | .wrUnmapped1C00 a k d => Sys2Proof.Machine.execWrUnmapped1C00 a k d s
  | .wrUnmapped1E00 a k d => Sys2Proof.Machine.execWrUnmapped1E00 a k d s
  | .wrUnmapped1F00 a k d => Sys2Proof.Machine.execWrUnmapped1F00 a k d s
  | .wrDmasrcL a d => Sys2Proof.Machine.execWrDmasrcL a d s
  | .wrDmasrcM a d => Sys2Proof.Machine.execWrDmasrcM a d s
  | .wrDmasrcH a d => Sys2Proof.Machine.execWrDmasrcH a d s
  | .wrDmalenL a d => Sys2Proof.Machine.execWrDmalenL a d s
  | .wrDmalenH a d => Sys2Proof.Machine.execWrDmalenH a d s
  | .wrDmatgtL a d => Sys2Proof.Machine.execWrDmatgtL a d s
  | .wrDmatgtM a d => Sys2Proof.Machine.execWrDmatgtM a d s
  | .wrDmatgtH a d => Sys2Proof.Machine.execWrDmatgtH a d s
  | .wrCpreload a d => Sys2Proof.Machine.execWrCpreload a d s
  | .wrProgofsL a d => Sys2Proof.Machine.execWrProgofsL a d s
  | .wrProgofsM a d => Sys2Proof.Machine.execWrProgofsM a d s
  | .wrProgofsH a d => Sys2Proof.Machine.execWrProgofsH a d s
  | .wrCachelock a d => Sys2Proof.Machine.execWrCachelock a d s
  | .wrPageL a d => Sys2Proof.Machine.execWrPageL a d s
  | .wrPageH a d => Sys2Proof.Machine.execWrPageH a d s
  | .wrPc a d => Sys2Proof.Machine.execWrPc a d s
  | .wrSpeed a d => Sys2Proof.Machine.execWrSpeed a d s
  | .wrR1F51 a d => Sys2Proof.Machine.execWrR1F51 a d s
  | .wrR1F52 a d => Sys2Proof.Machine.execWrR1F52 a d s
  | .wrHalt a d => Sys2Proof.Machine.execWrHalt a d s
  | .wrNop1F54 a d => Sys2Proof.Machine.execWrNop1F54 a d s
  | .wrSuspend0 a d => Sys2Proof.Machine.execWrSuspend0 a d s
  | .wrSuspend1 a d => Sys2Proof.Machine.execWrSuspend1 a d s
  | .wrSuspend2 a d => Sys2Proof.Machine.execWrSuspend2 a d s
  | .wrSuspend3 a d => Sys2Proof.Machine.execWrSuspend3 a d s
  | .wrSuspend4 a d => Sys2Proof.Machine.execWrSuspend4 a d s
  | .wrSuspend5 a d => Sys2Proof.Machine.execWrSuspend5 a d s
  | .wrSuspend6 a d => Sys2Proof.Machine.execWrSuspend6 a d s
  | .wrSuspend7 a d => Sys2Proof.Machine.execWrSuspend7 a d s
  | .wrUnsuspend a d => Sys2Proof.Machine.execWrUnsuspend a d s
  | .wrNop1F5E a d => Sys2Proof.Machine.execWrNop1F5E a d s
  | .wrNop1F5F a d => Sys2Proof.Machine.execWrNop1F5F a d s
  | .wrVector a vi d => Sys2Proof.Machine.execWrVector a vi d s
  | .wrGprA0 a m d => Sys2Proof.Machine.execWrGprA0 a m d s
  | .wrGprA1 a m d => Sys2Proof.Machine.execWrGprA1 a m d s
  | .wrUnmapped1FB0 a k d => Sys2Proof.Machine.execWrUnmapped1FB0 a k d s
  | .wrGprB0 a m d => Sys2Proof.Machine.execWrGprB0 a m d s
  | .wrGprB1 a m d => Sys2Proof.Machine.execWrGprB1 a m d s
  | .wrUnmapped1FF0 a k d => Sys2Proof.Machine.execWrUnmapped1FF0 a k d s
  | .romRead ctx addr => Sys2Proof.Machine.execRomRead ctx addr s
  | .speedQuery addr => Sys2Proof.Machine.execSpeedQuery addr s
  | .dmaStart => Sys2Proof.Machine.execDmaStart s
  | .dmaByte => Sys2Proof.Machine.execDmaByte s
  | .dmaDone => Sys2Proof.Machine.execDmaDone s
  | .cloadByte => Sys2Proof.Machine.execCloadByte s
  | .cloadDone => Sys2Proof.Machine.execCloadDone s
  | .suspExpire => Sys2Proof.Machine.execSuspExpire s
  | .engHalt => Sys2Proof.Machine.execEngHalt s
  | .engGpr r v => Sys2Proof.Machine.execEngGpr r v s
  | .engFill p => Sys2Proof.Machine.execEngFill p s
  | .engPage b => Sys2Proof.Machine.execEngPage b s
  | .engBus acc => Sys2Proof.Machine.execEngBus acc s

end Sys2Proof.Machine
end

