-- ==== Sys2Proof/Machine/Step.lean ====
section
/-! DEFINITION. One step of the machine: the next entry of the inbox is taken and its effect happens (spec/20_memory.md R66, R68).
The block runs no program of its own; the inbox holds the order of all agents' steps (notes/assumptions/2.md). -/

namespace Sys2Proof.Machine

/-- One step. An empty inbox leaves the state as it is: no agent steps (spec/44_run_state.md R250). A scheduled step that is `stuck`
is not taken (`passStuck`). -/
def step (s : State) : Host.Outcome State Fault Refusal :=
  match takeEntry s with
  | none => .next s
  | some (.systemReset d, s') => .next (systemReset d s')
  | some (.txn t, s') =>
    match decode t with
    | .error e => .refused (.malformed e)
    | .ok i => passStuck s' (exec i s')

/-- `s` with the transaction of a table word scheduled next (notes/assumptions/3.md). -/
def State.withFetchWord (s : State) (nbits w : Nat) : State := { s with inbox := .txn (tableTxn nbits w) :: s.inbox }

end Sys2Proof.Machine
end

