-- ==== Sys2Proof/Safety.lean ====
section
/-! DEFINITION. The terms the statements use: the state after a window transaction, byte slots said bit by bit, runs of several
instructions, the window's regions as numbers, and the invariant of the block. -/

namespace Sys2Proof.Machine

/-! ## Window transactions -/

/-- The events of a window transaction's `Sync`: one, and none for a debug access (spec/40_bus_dispatch.md R102, R103). -/
def syncEvents (a : Access) : List BusEvent := if a.dbg then [] else [.sync .host]

/-- The state after a window read that returns `d`: the trace has the `Sync` and then the byte, and nothing else changes. -/
def State.afterRead (s : State) (a : Access) (d : Byte) : State :=
  { s with trace := s.trace ++ (syncEvents a ++ [.readData d]) }

/-- The state after a window write that leaves `S` as `b`: the trace has the `Sync`, and nothing else changes. -/
def State.afterWrite (s : State) (a : Access) (b : Block) : State :=
  { s with blk := b, trace := s.trace ++ syncEvents a }

/-- A window transaction `(dbg, W, addr, d)` at offset `o` of bank `bank` (spec/30_encoding.md R80). -/
def windowTxn (dbg w : Bool) (bank : Byte) (o : Offset) (d : Byte) : Txn :=
  { port := .window, bytes := bytes16 (windowKey dbg w o) ++ (bank :: if w then [d] else []) }

/-- The decoder reads `i` from a read of offset `o`, through any access in the chip window. -/
def ReadAt (o : Nat) (a : Access) (i : Instr) : Prop :=
  a.wellFormed = true → decode (windowTxn a.dbg false a.bank (BitVec.ofNat 13 o) 0) = .ok i

/-- The decoder reads `i` from a write of `d` to offset `o`, through any access in the chip window. -/
def WriteAt (o : Nat) (a : Access) (d : Byte) (i : Instr) : Prop :=
  a.wellFormed = true → decode (windowTxn a.dbg true a.bank (BitVec.ofNat 13 o) d) = .ok i

/-- `i` is the read of offset `o`; it completes, returns `d`, and changes nothing. -/
def Reads (o : Nat) (i : Instr) (a : Access) (s : State) (d : Byte) : Prop :=
  ReadAt o a i ∧ exec i s = .next (s.afterRead a d)

/-- `i` is the write of `d` to offset `o`; it completes and leaves `S` as `b`. -/
def Writes (o : Nat) (i : Instr) (a : Access) (d : Byte) (s : State) (b : Block) : Prop :=
  WriteAt o a d i ∧ exec i s = .next (s.afterWrite a b)

/-! ## Bytes and slots -/

/-- `after` is `before` with `d` stored at index `i` if that is in range; every other byte reads as before
(spec/40_bus_dispatch.md R107, R108). -/
def StoresByte (size : Nat) (before after : Memory) (i : Nat) (d : Byte) : Prop :=
  ∀ j, Memory.read after j = if j = i ∧ i < size then d else Memory.read before j


/-- `d` is slot `k` of `f`: bit `n` of `d` is bit `8k + n` of `f`, zero where `f` has no such bit (spec/41_register_read.md R130). -/
def SlotIs {w : Nat} (f : BitVec w) (k : Nat) (d : Byte) : Prop :=
  ∀ n, n < 8 → d.getLsbD n = f.getLsbD (8 * k + n)

/-- `new` is `old` with `d` merged into slot `k`: the bits of slot `k` are those of `d`, every other bit is kept
(spec/42_register_write.md R160). -/
def SlotMerged {w : Nat} (old new : BitVec w) (k : Nat) (d : Byte) : Prop :=
  ∀ n, n < w → new.getLsbD n = if 8 * k ≤ n ∧ n < 8 * k + 8 then d.getLsbD (n - 8 * k) else old.getLsbD n

/-- `i` is the read of offset `o`; it completes, returns slot `k` of `f`, and changes nothing. -/
def ReadsSlot {w : Nat} (o : Nat) (i : Instr) (a : Access) (s : State) (f : BitVec w) (k : Nat) : Prop :=
  ∃ d, Reads o i a s d ∧ SlotIs f k d

/-- `i` is the read of offset `o`; it completes, returns the number `n`, and changes nothing. -/
def ReadsNumber (o : Nat) (i : Instr) (a : Access) (s : State) (n : Nat) : Prop :=
  ∃ d : Byte, Reads o i a s d ∧ d.toNat = n

/-- `i` is the write of `d` to offset `o`; it completes, merges `d` into slot `k` of the field `old` that `store` replaces, and
changes nothing else. -/
def MergesSlot {w : Nat} (o : Nat) (i : Instr) (a : Access) (d : Byte) (s : State) (old : BitVec w) (store : BitVec w → Block)
    (k : Nat) : Prop :=
  ∃ new, Writes o i a d s (store new) ∧ SlotMerged old new k d

/-- `i` is the write of `d` to offset `o`; it completes, stores `d` at scratch index `n`, and changes nothing else. -/
def WritesScratch (o : Nat) (i : Instr) (a : Access) (d : Byte) (s : State) (n : Nat) : Prop :=
  ∃ m, Writes o i a d s { s.blk with scratch := m } ∧ StoresByte 3072 s.blk.scratch m n d

/-- `i` is the write of `d` to byte `n` of a GPR window, at offset `o`; it completes, merges `d` into slot `n mod 3` of register
`n div 3`, and changes nothing else (spec/30_encoding.md R85). -/
def WritesGpr (o : Nat) (i : Instr) (a : Access) (d : Byte) (s : State) (n : Nat) : Prop :=
  ∃ g, Writes o i a d s { s.blk with gpr := g } ∧
    ∀ (j : Nat) (h : j < 16), if j = n / 3 then SlotMerged s.blk.gpr[j] g[j] (n % 3) d else g[j] = s.blk.gpr[j]

/-- `i` is the write of `d` to suspend address `k`, offset 0x1F55 + k; it completes, suspends for 32k cycles, and changes nothing
else. -/
def WritesSuspend (k : Nat) (i : Instr) (a : Access) (d : Byte) (s : State) : Prop :=
  ∃ n : BitVec 8, n.toNat = 32 * k ∧ Writes (0x1F55 + k) i a d s { s.blk with suspend := true, suspendCycles := n }

/-- The `Sync` events an instruction causes before anything else (spec/40_bus_dispatch.md R102): one for a window transaction that is
not a debug access and for a host read of the ROM port, none for any other. -/
def syncsOf (i : Instr) : List BusEvent :=
  match i.access?, i with
  | some a, _ => syncEvents a
  | none, .romRead .host _ => [.sync .host]
  | none, _ => []

/-- A transaction of the Host or the Debugger: a window transaction, a read of the ROM port, or a speed query
(spec/00_scope.md R2). -/
def HostTransaction (i : Instr) : Prop :=
  (∃ a, i.access? = some a) ∨ (∃ ctx addr, i = .romRead ctx addr) ∨ (∃ addr, i = .speedQuery addr)

/-- An event of the Engine (spec/44_run_state.md R244 to R248). -/
def EngineEvent (i : Instr) : Prop :=
  i = .engHalt ∨ (∃ r v, i = .engGpr r v) ∨ (∃ p, i = .engFill p) ∨ (∃ b, i = .engPage b) ∨ (∃ acc, i = .engBus acc)

/-! ## Runs -/

/-- The instructions of a list, one after the other, stopping at the first that does not answer a next state. -/
def execAll : List Instr → State → Result
  | [], s => .next s
  | i :: is, s =>
    match exec i s with
    | .next t => execAll is t
    | .fault r => .fault r
    | .refused r => .refused r

/-! ## Addresses -/

/-- The address is in the default chip window: bank bit 6 clear and offsets 0x6000 to 0x7FFF (spec/30_encoding.md R81). -/
def InWindow (a : Addr) : Prop := a.toNat / 0x400000 % 2 = 0 ∧ a.toNat / 0x2000 % 8 = 3

/-- The address is in the block's own control space: offsets 0x1C00 to 0x1FFF of the window (spec/30_encoding.md R82). -/
def InControlSpace (a : Addr) : Prop := InWindow a ∧ 0x1C00 ≤ a.toNat % 0x2000

/-- The address reaches scratch index `i`, in range or not (spec/30_encoding.md R82, spec/20_memory.md R70). -/
def ReachesScratch (a : Addr) (i : Nat) : Prop := InWindow a ∧ a.toNat % 0x2000 < 0x1C00 ∧ i = a.toNat % 0x1000

/-- The address is outside the window: the cartridge collaborator's (spec/20_memory.md R70). -/
def OnCartridge (a : Addr) : Prop := ¬ InWindow a

/-- The scratch byte a chip-bus or window read of index `i` returns: 0 out of range (spec/40_bus_dispatch.md R105, R106). -/
def Block.scratchAt (s : Block) (i : Nat) : Byte := if i < 3072 then Memory.read s.scratch i else 0

/-! ## The cartridge and the chip bus -/

/-- The cartridge answered a read of `addr` with `v`: the next byte it was given or, when it has none, a free value. Nothing else
changes but the trace (spec/93_implementation_defined.md U9; notes/assumptions/7.md). -/
def CartReads (s t : State) (addr : Addr) (v : Byte) : Prop :=
  t.blk = s.blk ∧ t.engineStuck = s.engineStuck ∧ t.inbox = s.inbox ∧ t.trace = s.trace ++ [.cartRead addr v] ∧
    ((s.cartIn = v :: t.cartIn ∧ t.draws = s.draws) ∨
      (s.cartIn = [] ∧ t.cartIn = [] ∧ t.draws = s.draws + 1 ∧ v = Config.cartByte s.draws addr))

/-- A chip-bus read of `addr` returned `v`: the scratch byte, which changes nothing, or the cartridge's (spec/20_memory.md R70). -/
def ChipReads (s t : State) (addr : Addr) (v : Byte) : Prop :=
  (∃ i, ReachesScratch addr i ∧ v = s.blk.scratchAt i ∧ t = s) ∨ (OnCartridge addr ∧ CartReads s t addr v)

/-- A chip-bus write of `v` to `addr` was made: the scratch byte, if its index is in range, or an access that reached the cartridge.
Nothing else changes (spec/20_memory.md R70). -/
def ChipWrites (s t : State) (addr : Addr) (v : Byte) : Prop :=
  (∃ i m, ReachesScratch addr i ∧ StoresByte 3072 s.blk.scratch m i v ∧ t = s.setBlk { s.blk with scratch := m }) ∨
    (OnCartridge addr ∧ t = s.emit (.cartWrite addr v))

/-! ## Conditions -/

/-- The expanded form of `engineGrant` (spec/44_run_state.md R242). -/
def Block.Granted (s : Block) : Prop := s.halt = false ∧ s.suspend = false ∧ s.dmaActive = false ∧ s.cacheLoading = false

/-- An Engine event may be taken: `engineGrant` holds, and no locked miss has left the Engine stuck (spec/44_run_state.md R242,
spec/43_dma_cache.md R210). -/
def State.EngineMayStep (s : State) : Prop := s.blk.Granted ∧ s.engineStuck = false

/-- The value of the status byte: 128 for busy, 64 for running, 2 for `halt`, 1 for `suspend` (spec/10_state.md R42). -/
def statusNumber (s : Block) : Nat :=
  128 * (!s.halt || s.dmaPending || s.dmaActive || s.cacheLoading).toNat + 64 * (!s.halt).toNat + 2 * s.halt.toNat + s.suspend.toNat

/-- A host read of the ROM port passes through: not suspended, and not busy (spec/40_bus_dispatch.md R111, spec/10_state.md R42). -/
def Block.LetsThrough (s : Block) : Prop :=
  s.suspend = false ∧ s.halt = true ∧ s.dmaPending = false ∧ s.dmaActive = false ∧ s.cacheLoading = false

/-- DMA-START may be taken: a transfer is armed, none is active, the chip is Halted, and no load has begun
(spec/43_dma_cache.md R200, R201). -/
def Block.DmaMayStart (s : Block) : Prop :=
  s.dmaActive = false ∧ s.dmaPending = true ∧ s.halt = true ∧ (s.cacheLoading = true → s.cload.count.toNat = 0)

/-- CLOAD-BYTE may be taken: a load is running, not all 512 bytes are there, and no DMA owns the bus
(spec/43_dma_cache.md R200, R205). -/
def Block.LoadMayContinue (s : Block) : Prop :=
  s.cacheLoading = true ∧ s.cload.count.toNat < 512 ∧ s.dmaActive = false ∧
    (s.cload.count.toNat = 0 → ¬ (s.dmaPending = true ∧ s.halt = true))

/-- Neither bank holds page `p` (spec/44_run_state.md R246). -/
def Block.Misses (s : Block) (p : BitVec 15) : Prop :=
  ¬ (s.bank0.valid = true ∧ s.bank0.page = p) ∧ ¬ (s.bank1.valid = true ∧ s.bank1.page = p)

/-- The transaction scheduled next is instruction `i`. -/
def State.Takes (s : State) (i : Instr) : Prop := ∃ x rest, s.inbox = .txn x :: rest ∧ decode x = .ok i

/-- A host-system reset is scheduled next. -/
def State.TakesReset (s : State) : Prop := ∃ d rest, s.inbox = .systemReset d :: rest

/-- The fields spec/70_reset_and_hazards.md R280 fixes at initialisation have their values. -/
structure Block.Initial (s : Block) : Prop where
  halt : s.halt = true
  dma : s.dmaPending = false ∧ s.dmaActive = false
  loading : s.cacheLoading = false
  suspend : s.suspend = false ∧ s.suspendCycles.toNat = 0
  cachePage : s.cachePage = .b0
  cachePreload : s.cachePreload = false
  locks : s.bank0.lock = false ∧ s.bank1.lock = false
  speeds : s.ramSpeed.toNat = 0 ∧ s.romSpeed.toNat = 0
  flags : s.r1f51 = false ∧ s.r1f52 = false
  tags : s.bank0.valid = false ∧ s.bank1.valid = false

/-! ## The invariant -/

/-- What every step keeps of `S`, from whatever state it starts: the memories keep their canonical form; the suspend count is a
multiple of 32 (spec/10_state.md R39); a running load has a count of at most 512 (R41), and its bank's tag is invalid until it
completes (spec/42_register_write.md R171); a DMA transfer and a started load never overlap (spec/43_dma_cache.md R200); a transfer
has at most 65535 bytes to go (R204). -/
structure Block.Inv (s : Block) : Prop where
  scratch_wf : Memory.wf 3072 s.scratch
  bank0_wf : Memory.wf 512 s.bank0.mem
  bank1_wf : Memory.wf 512 s.bank1.mem
  suspend_count : s.suspendCycles.toNat % 32 = 0
  load_count : s.cacheLoading = true → s.cload.count.toNat ≤ 512
  load_tag : s.cacheLoading = true → (s.bank s.cload.bank).valid = false
  one_transfer : s.dmaActive = true → s.cacheLoading = true → s.cload.count = 0
  dma_count : s.dmaActive = true → s.dmaCur.remaining.toNat ≤ 65535

/-- What every step keeps of the whole state: the block's invariant, and a stuck Engine only while both banks are locked
(spec/43_dma_cache.md R210). -/
structure State.Inv (s : State) : Prop where
  blk : s.blk.Inv
  stuck : s.engineStuck = true → s.blk.bank0.lock = true ∧ s.blk.bank1.lock = true

end Sys2Proof.Machine
end

