-- ==== Sys2Proof/Certificates/Slice0/Obligations.lean ====
section
/-! DEFINITION. The statements for the provers. Each docstring says what it states; OBLIGATIONS.json names the rules of spec/ it
formalises or rests on. -/

section
open Sys2Proof Sys2Proof.Machine

/-- Decoding the words of any well-formed instruction gives it back. For every well-formed instruction, with every operand at
every value its encoding admits, decoding its encoding answers that instruction. The byte layouts are the model's choice
(notes/assumptions/1.md). -/
def Obligations.EncodeThenDecode : Prop :=
  ∀ i : Instr, i.wellFormed = true → decode (encode i) = .ok i

/-- A transaction the decoder accepts is the encoding of the well-formed instruction it answers. Whatever bytes arrive at whatever
port, if the decoder answers an instruction then the instruction is well formed and its encoding is those bytes: no bit of an
accepted transaction is dropped. The byte layouts are the model's choice (notes/assumptions/1.md), and so is refusing other bytes
(notes/assumptions/18.md). -/
def Obligations.DecodeThenEncode : Prop :=
  ∀ (x : Txn) (i : Instr), decode x = .ok i → i.wellFormed = true ∧ encode i = x

/-- Every window key selects exactly one row of the opcode table, and decodes to that row's instruction. For every access in the
chip window, direction, offset and data byte, exactly one row of the opcode table matches the key (dbg masked out), and the
decoder answers the instruction of that row. -/
def Obligations.OneRowPerKey : Prop :=
  ∀ (a : Access) (w : Bool) (o : Offset) (d : Byte), a.wellFormed = true →
    ∃ r, windowRows.filter (fun x => x.matches (BitVec.ofBool w ++ o)) = [r] ∧
      decode (windowTxn a.dbg w a.bank o d) = .ok (r.build a o d)

/-- Words written out from the spec's encodings decode to the instructions they stand for. One word of each format, written bit by
bit from the spec's encoding of it, decodes to the instruction it stands for. The order of the bytes is the model's choice
(notes/assumptions/1.md). -/
def Obligations.WordsDecode : Prop :=
  decode ⟨.window, [0x40, 0x1F, 0x00]⟩ = .ok (.rdDmasrcL ⟨false, 0x00⟩) ∧
  decode ⟨.window, [0x47, 0x3F, 0x00, 0x12]⟩ = .ok (.wrDmatgtH ⟨false, 0x00⟩ 0x12) ∧
  decode ⟨.window, [0x5F, 0x5F, 0xBF]⟩ = .ok (.rdStatus1F5F ⟨true, 0xBF⟩) ∧
  decode ⟨.window, [0x23, 0x31, 0x3F, 0x9A]⟩ = .ok (.wrScratch1000 ⟨false, 0x3F⟩ 0x123 0x9A) ∧
  decode ⟨.rom, [0xFC, 0xFF, 0x00, 0x00]⟩ = .ok (.romRead .host 0x00FFFC) ∧
  decode ⟨.speed, [0x00, 0x80, 0x01]⟩ = .ok (.speedQuery 0x018000) ∧
  decode ⟨.step, [0x03]⟩ = .ok .cloadByte ∧
  decode ⟨.event, [0x01, 0x02, 0x05, 0x01, 0x00]⟩ = .ok (.engGpr 2 0x000105)

/-- A step runs the instruction the next transaction decodes to. When the transaction scheduled next decodes to an instruction,
the step takes it and is exec of it at the state without it: its next state, or its refusal; a stuck outcome is passed over,
leaving the state as it was but for a mark in the trace (notes/assumptions/6.md) and, after a locked miss, an Engine left stuck
(R210, notes/assumptions/19.md). Bytes that are no transaction are refused by name (notes/assumptions/18.md). With nothing
scheduled the state stays as it is (notes/assumptions/2.md). -/
def Obligations.StepRunsDecodedInstruction : Prop :=
  (∀ (s : State) (x : Txn) (rest : List Entry), s.inbox = .txn x :: rest →
    (∀ i, decode x = .ok i →
      (∀ t, exec i { s with inbox := rest } = .next t → step s = .next t) ∧
      (∀ f, exec i { s with inbox := rest } = .fault f → (∀ p, f ≠ .lockedMissStuck p) →
        step s = .next { s with inbox := rest, trace := s.trace ++ [.stuck f] }) ∧
      (∀ p, exec i { s with inbox := rest } = .fault (.lockedMissStuck p) →
        step s = .next { s with inbox := rest, engineStuck := true, trace := s.trace ++ [.stuck (.lockedMissStuck p)] }) ∧
      (∀ r, exec i { s with inbox := rest } = .refused r → step s = .refused r)) ∧
    (∀ e, decode x = .error e → step s = .refused (.malformed e))) ∧
  (∀ s : State, s.inbox = [] → step s = .next s)

/-- A host-system reset initialises the block again or does nothing, as SystemResetReinit says. A scheduled host-system reset
completes. If the open parameter SystemResetReinit holds, S becomes an initial state with the values drawn, and no Engine is stuck
(notes/assumptions/19.md); otherwise both stay as they are. That the reset is an entry of the schedule and leaves the rest of the
state alone is the model's choice (notes/assumptions/14.md). -/
def Obligations.SystemResetStep : Prop :=
  ∀ (s : State) (d : ResetDraw) (rest : List Entry), s.inbox = .systemReset d :: rest →
    ∃ b e, step s = .next { s with blk := b, engineStuck := e, inbox := rest } ∧
      ((Config.systemResetReinit = true ∧ b = resetDraw d ∧ b.Initial ∧ e = false) ∨
        (Config.systemResetReinit = false ∧ b = s.blk ∧ e = s.engineStuck))

/-- At initialisation every field has the value of R46 and every other field is a draw. Whatever is drawn, halt is 1 and
dmaPending, dmaActive, cacheLoading, suspend, suspendCycles, cachePage, cachePreload, both locks, both speeds, r1f51, r1f52 and
both valid bits are 0; and every state with those values, whatever its other fields, is the initial state of some draw (memories
in canonical form, notes/assumptions/5.md). -/
def Obligations.InitialisationReachesEveryDraw : Prop :=
  (∀ d : ResetDraw, (resetDraw d).Initial) ∧
  (∀ b : Block, b.Initial → Memory.wf 3072 b.scratch → Memory.wf 512 b.bank0.mem → Memory.wf 512 b.bank1.mem →
    ∃ d, resetDraw d = b)

/-- Immediately after initialisation the status byte reads 2, at every alias. After an initialisation that draws anything, a read
of any of the thirteen status offsets 0x1F53 to 0x1F5F, through any access in the window, returns 2 and changes nothing. -/
def Obligations.StatusAfterInitialisation : Prop :=
  ∀ (a : Access) (s : State) (d : ResetDraw) (o : Nat), a.wellFormed = true → 0x1F53 ≤ o → o ≤ 0x1F5F →
    ∃ i, ReadsNumber o i a { s with blk := resetDraw d } 2

/-- The state after reset is an initial state with nothing scheduled. The model's state after reset is an initial state of R280,
one that some draw gives, with no Engine stuck (notes/assumptions/19.md) and nothing scheduled, answered or traced. Its drawn
fields are 0, which is the model's choice (notes/assumptions/4.md). -/
def Obligations.ResetState : Prop :=
  State.reset.blk.Initial ∧ (∃ d, resetDraw d = State.reset.blk) ∧ State.reset.engineStuck = false ∧
    State.reset.inbox = [] ∧ State.reset.cartIn = [] ∧
    State.reset.trace = []

/-- The invariant of the block holds after reset and after an initialisation that draws anything. The canonical form of the
memories, the multiple-of-32 suspend count, the loader's bound and invalid tag, the exclusion of overlapping transfers and the DMA
bound hold at the reset state and at every initial state; at the reset state no Engine is stuck, so that part of the invariant
holds too (notes/assumptions/19.md). -/
def Obligations.InvariantAtReset : Prop :=
  State.reset.Inv ∧ ∀ d : ResetDraw, (resetDraw d).Inv

/-- Scratch reads return the byte, through both aliases, and change nothing. A read of offsets 0x0000 to 0x0BFF or 0x1000 to
0x1BFF completes and returns the scratch byte at the offset's twelve low bits. -/
def Obligations.ScratchReads : Prop :=
  ∀ (a : Access) (s : State) (i : BitVec 11) (j : BitVec 10),
    Reads i.toNat (.rdScratch0000 a i) a s (Memory.read s.blk.scratch i.toNat) ∧
    Reads (0x0800 + j.toNat) (.rdScratch0800 a j) a s (Memory.read s.blk.scratch (0x0800 + j.toNat)) ∧
    Reads (0x1000 + i.toNat) (.rdScratch1000 a i) a s (Memory.read s.blk.scratch i.toNat) ∧
    Reads (0x1800 + j.toNat) (.rdScratch1800 a j) a s (Memory.read s.blk.scratch (0x0800 + j.toNat))

/-- The out-of-range scratch band reads 0 and ignores writes. At offsets 0x0C00 to 0x0FFF a read completes and returns 0, and a
write completes and changes no field of S. -/
def Obligations.ScratchOutOfRange : Prop :=
  ∀ (a : Access) (d : Byte) (s : State) (k : BitVec 10),
    Reads (0x0C00 + k.toNat) (.rdScratchOor a k) a s 0 ∧ Writes (0x0C00 + k.toNat) (.wrScratchOor a k d) a d s s.blk

/-- Reads of the DMA registers return the addressed byte slot and change nothing. Each read of a slot of dmaSource, dmaLength and
dmaTarget completes in both run states, returns bits 8k to 8k+7 of the field, and changes nothing: the read of the target's high
slot has no trigger effect. -/
def Obligations.DmaRegisterReads : Prop :=
  ∀ (a : Access) (s : State),
    ReadsSlot 0x1F40 (.rdDmasrcL a) a s s.blk.dmaSource 0 ∧
    ReadsSlot 0x1F41 (.rdDmasrcM a) a s s.blk.dmaSource 1 ∧
    ReadsSlot 0x1F42 (.rdDmasrcH a) a s s.blk.dmaSource 2 ∧
    ReadsSlot 0x1F43 (.rdDmalenL a) a s s.blk.dmaLength 0 ∧
    ReadsSlot 0x1F44 (.rdDmalenH a) a s s.blk.dmaLength 1 ∧
    ReadsSlot 0x1F45 (.rdDmatgtL a) a s s.blk.dmaTarget 0 ∧
    ReadsSlot 0x1F46 (.rdDmatgtM a) a s s.blk.dmaTarget 1 ∧
    ReadsSlot 0x1F47 (.rdDmatgtH a) a s s.blk.dmaTarget 2

/-- Reads of the program offset, low page byte and program counter return the addressed byte and change nothing. Each read of a
slot of programOffset, of the low slot of pageNumber and of programCounter completes in both run states, returns the byte, and
changes nothing. -/
def Obligations.ProgramRegisterReads : Prop :=
  ∀ (a : Access) (s : State),
    ReadsSlot 0x1F49 (.rdProgofsL a) a s s.blk.programOffset 0 ∧
    ReadsSlot 0x1F4A (.rdProgofsM a) a s s.blk.programOffset 1 ∧
    ReadsSlot 0x1F4B (.rdProgofsH a) a s s.blk.programOffset 2 ∧
    ReadsSlot 0x1F4D (.rdPageL a) a s s.blk.pageNumber 0 ∧
    ReadsNumber 0x1F4F (.rdPc a) a s s.blk.programCounter.toNat

/-- The high page byte reads bits 14 to 8 of the page number, with bit 7 zero. A read of offset 0x1F4E completes and returns bits
14:8 of pageNumber, below 128; after a write of d there, through any access, it returns d mod 128. R145 is a rule the spec marks
as derived. -/
def Obligations.PageHighByteReadsSevenBits : Prop :=
  ∀ (a a' : Access) (d : Byte) (s : State),
    ReadsNumber 0x1F4E (.rdPageH a) a s (s.blk.pageNumber.toNat / 256) ∧
    ∃ t, exec (.wrPageH a' d) s = .next t ∧ ReadsNumber 0x1F4E (.rdPageH a) a t (d.toNat % 128)

/-- Reads of the preload, lock, speed and flag bytes return the packed fields and change nothing. The preload byte and the two
flag bytes read 0 or 1, the lock byte reads 2 lock[1] + lock[0], and the speed byte reads 16 romSpeed + ramSpeed; each read
completes in both run states and changes nothing. -/
def Obligations.ControlByteReads : Prop :=
  ∀ (a : Access) (s : State),
    ReadsNumber 0x1F48 (.rdCpreload a) a s s.blk.cachePreload.toNat ∧
    ReadsNumber 0x1F4C (.rdCachelock a) a s (2 * s.blk.bank1.lock.toNat + s.blk.bank0.lock.toNat) ∧
    ReadsNumber 0x1F50 (.rdSpeed a) a s (16 * s.blk.romSpeed.toNat + s.blk.ramSpeed.toNat) ∧
    ReadsNumber 0x1F51 (.rdR1F51 a) a s s.blk.r1f51.toNat ∧
    ReadsNumber 0x1F52 (.rdR1F52 a) a s s.blk.r1f52.toNat

/-- Every status alias returns busy, running, halt and suspend. A read of any of the thirteen offsets 0x1F53 to 0x1F5F completes
and returns 128 busy + 64 running + 2 halt + suspend, where running is NOT halt and busy is running OR dmaPending OR dmaActive OR
cacheLoading, and changes nothing. -/
def Obligations.StatusReads : Prop :=
  ∀ (a : Access) (s : State),
    ReadsNumber 0x1F53 (.rdStatus1F53 a) a s (statusNumber s.blk) ∧
    ReadsNumber 0x1F54 (.rdStatus1F54 a) a s (statusNumber s.blk) ∧
    ReadsNumber 0x1F55 (.rdStatus1F55 a) a s (statusNumber s.blk) ∧
    ReadsNumber 0x1F56 (.rdStatus1F56 a) a s (statusNumber s.blk) ∧
    ReadsNumber 0x1F57 (.rdStatus1F57 a) a s (statusNumber s.blk) ∧
    ReadsNumber 0x1F58 (.rdStatus1F58 a) a s (statusNumber s.blk) ∧
    ReadsNumber 0x1F59 (.rdStatus1F59 a) a s (statusNumber s.blk) ∧
    ReadsNumber 0x1F5A (.rdStatus1F5A a) a s (statusNumber s.blk) ∧
    ReadsNumber 0x1F5B (.rdStatus1F5B a) a s (statusNumber s.blk) ∧
    ReadsNumber 0x1F5C (.rdStatus1F5C a) a s (statusNumber s.blk) ∧
    ReadsNumber 0x1F5D (.rdStatus1F5D a) a s (statusNumber s.blk) ∧
    ReadsNumber 0x1F5E (.rdStatus1F5E a) a s (statusNumber s.blk) ∧
    ReadsNumber 0x1F5F (.rdStatus1F5F a) a s (statusNumber s.blk)

/-- Reads through either GPR window return the byte of the one register bank. Byte m of either window, 0 to 47, at offset 0x1F80 +
m or 0x1FC0 + m, reads slot m mod 3 of register m div 3, in both run states, and changes nothing. -/
def Obligations.GprReads : Prop :=
  ∀ (a : Access) (s : State) (m : BitVec 5) (k : BitVec 4),
    ReadsSlot (0x1F80 + m.toNat) (.rdGprA0 a m) a s (s.blk.gpr[m.toNat / 3]'(by have := m.isLt; omega)) (m.toNat % 3) ∧
    ReadsSlot (0x1FA0 + k.toNat) (.rdGprA1 a k) a s (s.blk.gpr[(32 + k.toNat) / 3]'(by have := k.isLt; omega))
      ((32 + k.toNat) % 3) ∧
    ReadsSlot (0x1FC0 + m.toNat) (.rdGprB0 a m) a s (s.blk.gpr[m.toNat / 3]'(by have := m.isLt; omega)) (m.toNat % 3) ∧
    ReadsSlot (0x1FE0 + k.toNat) (.rdGprB1 a k) a s (s.blk.gpr[(32 + k.toNat) / 3]'(by have := k.isLt; omega))
      ((32 + k.toNat) % 3)

/-- Reads of the vector window return the vector byte, and unmapped control-space offsets read 0. A read of offset 0x1F60 + vi
completes in both run states and returns vector byte vi; a read of offsets 0x1C00 to 0x1F3F, 0x1FB0 to 0x1FBF or 0x1FF0 to 0x1FFF
completes and returns 0; none changes anything. -/
def Obligations.VectorAndUnmappedReads : Prop :=
  ∀ (a : Access) (s : State) (vi : BitVec 5) (k9 : BitVec 9) (k8 : BitVec 8) (k6 : BitVec 6) (k4 : BitVec 4),
    Reads (0x1F60 + vi.toNat) (.rdVector a vi) a s (s.blk.vector[vi.toNat]'vi.isLt) ∧
    Reads (0x1C00 + k9.toNat) (.rdUnmapped1C00 a k9) a s 0 ∧
    Reads (0x1E00 + k8.toNat) (.rdUnmapped1E00 a k8) a s 0 ∧
    Reads (0x1F00 + k6.toNat) (.rdUnmapped1F00 a k6) a s 0 ∧
    Reads (0x1FB0 + k4.toNat) (.rdUnmapped1FB0 a k4) a s 0 ∧
    Reads (0x1FF0 + k4.toNat) (.rdUnmapped1FF0 a k4) a s 0

/-- A window read of any offset changes nothing and returns the same byte wherever S is the same. For every offset, the read
through an access in the window completes, changes nothing but the trace, and returns the same byte in every state with the same
S: two reads with no step between return the same byte. R65 is a rule the spec marks as derived. -/
def Obligations.WindowReadsAreFunctionsOfBlock : Prop :=
  ∀ (a : Access) (o : Offset) (b : Block), a.wellFormed = true →
    ∃ i v, decode (windowTxn a.dbg false a.bank o 0) = .ok i ∧ ∀ s : State, s.blk = b → exec i s = .next (s.afterRead a v)

/-- A debug transaction acts exactly as the non-debug one, without the Sync. For every direction, bank of the window, offset and
data byte, the debug transaction and the non-debug one complete with the same S and surroundings; the events of the debug one hold
no Sync, and those of the other are one Sync and then the same. -/
def Obligations.DebugAccessesActTheSame : Prop :=
  ∀ (w : Bool) (bank : Byte) (o : Offset) (d : Byte) (s : State), Config.inChipWindow (windowAddr bank o) = true →
    ∃ i j t u ev, decode (windowTxn true w bank o d) = .ok i ∧ decode (windowTxn false w bank o d) = .ok j ∧
      exec i s = .next t ∧ exec j s = .next u ∧
      t.trace = s.trace ++ ev ∧ (∀ c, BusEvent.sync c ∉ ev) ∧ u = { t with trace := s.trace ++ .sync .host :: ev }

/-- Sync happens exactly once, first, in a window transaction and a host ROM read, and in nothing else. Whatever completes adds
its Sync events first and no other: one for a window transaction that is not a debug access and for a host read of the ROM port,
none for a debug access, a chip-side ROM read, a speed query, a Controller step or an Engine event. That each Sync is one event of
a trace is the model's form of R101 (notes/assumptions/10.md). -/
def Obligations.SyncExactlyOnce : Prop :=
  ∀ (i : Instr) (s t : State), exec i s = .next t →
    ∃ ev, t.trace = s.trace ++ (syncsOf i ++ ev) ∧ ∀ c, BusEvent.sync c ∉ ev

/-- Scratch writes store the byte, through both aliases, and change nothing else. A write of offsets 0x0000 to 0x0BFF or 0x1000 to
0x1BFF completes in both run states, stores the byte at the offset's twelve low bits, and leaves every other byte and every other
field as it was. -/
def Obligations.ScratchWrites : Prop :=
  ∀ (a : Access) (d : Byte) (s : State) (i : BitVec 11) (j : BitVec 10), Memory.wf 3072 s.blk.scratch →
    WritesScratch i.toNat (.wrScratch0000 a i d) a d s i.toNat ∧
    WritesScratch (0x0800 + j.toNat) (.wrScratch0800 a j d) a d s (0x0800 + j.toNat) ∧
    WritesScratch (0x1000 + i.toNat) (.wrScratch1000 a i d) a d s i.toNat ∧
    WritesScratch (0x1800 + j.toNat) (.wrScratch1800 a j d) a d s (0x0800 + j.toNat)

/-- A byte written to scratch memory through one alias is read back through either. For every scratch index below 3072, a write
through either alias and then a read through either alias, by any accesses in the window, complete, and the read returns the byte
written. -/
def Obligations.ScratchWriteSeenByBothAliases : Prop :=
  ∀ (a a' : Access) (d : Byte) (s : State) (n : Nat) (p q : Bool), Memory.wf 3072 s.blk.scratch → n < 3072 →
    a.wellFormed = true → a'.wellFormed = true →
    ∃ i j t, decode (windowTxn a.dbg true a.bank (BitVec.ofNat 13 (n + 0x1000 * p.toNat)) d) = .ok i ∧
      decode (windowTxn a'.dbg false a'.bank (BitVec.ofNat 13 (n + 0x1000 * q.toNat)) 0) = .ok j ∧
      exec i s = .next t ∧ exec j t = .next (t.afterRead a' d)

/-- Writes of the DMA registers merge the addressed byte slot and have no side effect. Each write of a slot of dmaSource and
dmaLength, and of the low and middle slots of dmaTarget, completes in both run states, replaces bits 8k to 8k+7 of the field, and
changes nothing else: no trigger. -/
def Obligations.DmaRegisterWrites : Prop :=
  ∀ (a : Access) (d : Byte) (s : State),
    MergesSlot 0x1F40 (.wrDmasrcL a d) a d s s.blk.dmaSource (fun x => { s.blk with dmaSource := x }) 0 ∧
    MergesSlot 0x1F41 (.wrDmasrcM a d) a d s s.blk.dmaSource (fun x => { s.blk with dmaSource := x }) 1 ∧
    MergesSlot 0x1F42 (.wrDmasrcH a d) a d s s.blk.dmaSource (fun x => { s.blk with dmaSource := x }) 2 ∧
    MergesSlot 0x1F43 (.wrDmalenL a d) a d s s.blk.dmaLength (fun x => { s.blk with dmaLength := x }) 0 ∧
    MergesSlot 0x1F44 (.wrDmalenH a d) a d s s.blk.dmaLength (fun x => { s.blk with dmaLength := x }) 1 ∧
    MergesSlot 0x1F45 (.wrDmatgtL a d) a d s s.blk.dmaTarget (fun x => { s.blk with dmaTarget := x }) 0 ∧
    MergesSlot 0x1F46 (.wrDmatgtM a d) a d s s.blk.dmaTarget (fun x => { s.blk with dmaTarget := x }) 1

/-- The write of the DMA target's high byte arms a transfer if Halted, and is only a store while Running. A write of offset 0x1F47
completes and merges the byte into slot 2 of dmaTarget. While Halted it also sets dmaPending and latches the source, the length
and the new target; while Running nothing else changes. -/
def Obligations.DmaTrigger : Prop :=
  ∀ (a : Access) (d : Byte) (s : State), ∃ tgt, SlotMerged s.blk.dmaTarget tgt 2 d ∧
    Writes 0x1F47 (.wrDmatgtH a d) a d s
      (if s.blk.halt then
        { s.blk with
          dmaTarget := tgt
          dmaPending := true
          dmaLatch := { src := s.blk.dmaSource, len := s.blk.dmaLength, tgt := tgt } }
      else { s.blk with dmaTarget := tgt })

/-- Writes of the program offset and page number merge the addressed byte slot and have no side effect. Each write of a slot of
programOffset and pageNumber completes in both run states, replaces the bits of the field in that slot (bits 14:8 from d[6:0] for
the high page slot), and changes nothing else. -/
def Obligations.ProgramRegisterWrites : Prop :=
  ∀ (a : Access) (d : Byte) (s : State),
    MergesSlot 0x1F49 (.wrProgofsL a d) a d s s.blk.programOffset (fun x => { s.blk with programOffset := x }) 0 ∧
    MergesSlot 0x1F4A (.wrProgofsM a d) a d s s.blk.programOffset (fun x => { s.blk with programOffset := x }) 1 ∧
    MergesSlot 0x1F4B (.wrProgofsH a d) a d s s.blk.programOffset (fun x => { s.blk with programOffset := x }) 2 ∧
    MergesSlot 0x1F4D (.wrPageL a d) a d s s.blk.pageNumber (fun x => { s.blk with pageNumber := x }) 0 ∧
    MergesSlot 0x1F4E (.wrPageH a d) a d s s.blk.pageNumber (fun x => { s.blk with pageNumber := x }) 1

/-- The write of the preload byte starts a load of the bank it names if Halted, whatever its lock bit. A write of offset 0x1F48
completes and stores bit 0. While Halted it also starts a load of the page number into the bank bit 0 names, from byte address
(programOffset + page × 512) mod 2^24, with count 0 and fill 0, and makes that bank's tag invalid; the lock bits do not matter.
While Running nothing else changes. The source address is R206's, which the spec marks as general knowledge. -/
def Obligations.PreloadTrigger : Prop :=
  ∀ (a : Access) (d : Byte) (s : State) (k : Bank), (k = if d.toNat % 2 = 1 then .b1 else .b0) →
    ∃ addr : Addr, addr.toNat = (s.blk.programOffset.toNat + s.blk.pageNumber.toNat * 512) % 2 ^ 24 ∧
      Writes 0x1F48 (.wrCpreload a d) a d s
        (if s.blk.halt then
          { (s.blk.setBank k { s.blk.bank k with valid := false }) with
            cachePreload := decide (d.toNat % 2 = 1)
            cacheLoading := true
            cload := { bank := k, page := s.blk.pageNumber, addr := addr, count := 0, fill := false } }
        else { s.blk with cachePreload := decide (d.toNat % 2 = 1) })

/-- The write of the lock byte sets both lock bits if Halted, freeing a stuck Engine if it unlocks a bank, and does nothing while
Running. A write of offset 0x1F4C completes. While Halted lock[0] and lock[1] take bits 0 and 1 of the byte, an Engine left stuck
by a locked miss stays so only if both bits are 1 (R210, notes/assumptions/19.md), and nothing else changes; while Running nothing
changes. -/
def Obligations.LockWrite : Prop :=
  ∀ (a : Access) (d : Byte) (s : State),
    WriteAt 0x1F4C a d (.wrCachelock a d) ∧
    exec (.wrCachelock a d) s = .next
      (if s.blk.halt then
        { s.afterWrite a
            { s.blk with
              bank0 := { s.blk.bank0 with lock := decide (d.toNat % 2 = 1) }
              bank1 := { s.blk.bank1 with lock := decide (d.toNat / 2 % 2 = 1) } } with
          engineStuck := s.engineStuck && decide (d.toNat % 4 = 3) }
      else s.afterWrite a s.blk)

/-- The write of the program-counter byte starts the chip if Halted, and is only a store while Running. A write of offset 0x1F4F
completes and stores the byte. While Halted the entry address becomes pageNumber × 256 + d, halt becomes 0 and the active bank
becomes 0; while Running nothing else changes. -/
def Obligations.RunStart : Prop :=
  ∀ (a : Access) (d : Byte) (s : State), ∃ entry : BitVec 23, entry.toNat = s.blk.pageNumber.toNat * 256 + d.toNat ∧
    Writes 0x1F4F (.wrPc a d) a d s
      (if s.blk.halt then { s.blk with programCounter := d, pcFull := entry, halt := false, cachePage := .b0 }
      else { s.blk with programCounter := d })

/-- Writes of the speed and flag bytes store their fields in both run states. A write of offset 0x1F50 completes and stores d mod
8 as ramSpeed and bits 6:4 as romSpeed; writes of 0x1F51 and 0x1F52 complete and store bit 0; nothing else changes. -/
def Obligations.SpeedAndFlagWrites : Prop :=
  ∀ (a : Access) (d : Byte) (s : State), ∃ ram rom : BitVec 3, ram.toNat = d.toNat % 8 ∧ rom.toNat = d.toNat / 16 % 8 ∧
    Writes 0x1F50 (.wrSpeed a d) a d s { s.blk with ramSpeed := ram, romSpeed := rom } ∧
    Writes 0x1F51 (.wrR1F51 a d) a d s { s.blk with r1f51 := decide (d.toNat % 2 = 1) } ∧
    Writes 0x1F52 (.wrR1F52 a d) a d s { s.blk with r1f52 := decide (d.toNat % 2 = 1) }

/-- The halt request sets halt, the unsuspend write clears suspend, regardless of state. A write of offset 0x1F53 completes in
either run state and sets halt; a write of 0x1F5D completes and clears suspend, leaving the count; nothing else changes. -/
def Obligations.HaltAndUnsuspendWrites : Prop :=
  ∀ (a : Access) (d : Byte) (s : State),
    Writes 0x1F53 (.wrHalt a d) a d s { s.blk with halt := true } ∧
    Writes 0x1F5D (.wrUnsuspend a d) a d s { s.blk with suspend := false }

/-- A write of suspend address k suspends for 32k cycles. For k from 0 to 7, a write of offset 0x1F55 + k completes in either run
state, sets suspend and sets the count to 32k; nothing else changes. -/
def Obligations.SuspendWrites : Prop :=
  ∀ (a : Access) (d : Byte) (s : State),
    WritesSuspend 0 (.wrSuspend0 a d) a d s ∧ WritesSuspend 1 (.wrSuspend1 a d) a d s ∧
    WritesSuspend 2 (.wrSuspend2 a d) a d s ∧ WritesSuspend 3 (.wrSuspend3 a d) a d s ∧
    WritesSuspend 4 (.wrSuspend4 a d) a d s ∧ WritesSuspend 5 (.wrSuspend5 a d) a d s ∧
    WritesSuspend 6 (.wrSuspend6 a d) a d s ∧ WritesSuspend 7 (.wrSuspend7 a d) a d s

/-- Writes of 0x1F54, 0x1F5E, 0x1F5F and of unmapped control-space offsets change nothing. Each completes in both run states and
leaves every field of S as it was. -/
def Obligations.WritesWithNoEffect : Prop :=
  ∀ (a : Access) (d : Byte) (s : State) (k9 : BitVec 9) (k8 : BitVec 8) (k6 : BitVec 6) (k4 : BitVec 4),
    Writes 0x1F54 (.wrNop1F54 a d) a d s s.blk ∧
    Writes 0x1F5E (.wrNop1F5E a d) a d s s.blk ∧
    Writes 0x1F5F (.wrNop1F5F a d) a d s s.blk ∧
    Writes (0x1C00 + k9.toNat) (.wrUnmapped1C00 a k9 d) a d s s.blk ∧
    Writes (0x1E00 + k8.toNat) (.wrUnmapped1E00 a k8 d) a d s s.blk ∧
    Writes (0x1F00 + k6.toNat) (.wrUnmapped1F00 a k6 d) a d s s.blk ∧
    Writes (0x1FB0 + k4.toNat) (.wrUnmapped1FB0 a k4 d) a d s s.blk ∧
    Writes (0x1FF0 + k4.toNat) (.wrUnmapped1FF0 a k4 d) a d s s.blk

/-- A write of the vector window stores the byte and changes nothing else. A write of offset 0x1F60 + vi completes in both run
states and replaces vector byte vi; the other 31 bytes and every other field stay. -/
def Obligations.VectorWrites : Prop :=
  ∀ (a : Access) (d : Byte) (s : State) (vi : BitVec 5), ∃ v : Vector Byte 32,
    Writes (0x1F60 + vi.toNat) (.wrVector a vi d) a d s { s.blk with vector := v } ∧
    ∀ (j : Nat) (h : j < 32), v[j] = if j = vi.toNat then d else s.blk.vector[j]

/-- Writes through either GPR window merge the byte into the one register bank. Byte m of either window, 0 to 47, at offset 0x1F80
+ m or 0x1FC0 + m, is merged into slot m mod 3 of register m div 3, in both run states; the other slots, the other registers and
every other field stay. -/
def Obligations.GprWrites : Prop :=
  ∀ (a : Access) (d : Byte) (s : State) (m : BitVec 5) (k : BitVec 4),
    WritesGpr (0x1F80 + m.toNat) (.wrGprA0 a m d) a d s m.toNat ∧
    WritesGpr (0x1FA0 + k.toNat) (.wrGprA1 a k d) a d s (32 + k.toNat) ∧
    WritesGpr (0x1FC0 + m.toNat) (.wrGprB0 a m d) a d s m.toNat ∧
    WritesGpr (0x1FE0 + k.toNat) (.wrGprB1 a k d) a d s (32 + k.toNat)

/-- Writing the slots of a field once each, in any order, leaves the same value. In each of the six orders, writing the three
slots of dmaSource, dmaTarget, programOffset or a GPR leaves d0 + 256 d1 + 65536 d2; in both orders, writing the two slots of
dmaLength leaves d0 + 256 d1, and of pageNumber that value mod 32768; only that field changes (for dmaTarget, what the trigger
also sets may change; written low to high while Halted, it latches the whole new target). R199 is a rule the spec marks as
derived. -/
def Obligations.SlotOrderIndependence : Prop :=
  ∀ (a : Access) (d0 d1 d2 : Byte) (s : State),
    (∀ l, l.Perm [Instr.wrDmasrcL a d0, .wrDmasrcM a d1, .wrDmasrcH a d2] → ∃ t, execAll l s = .next t ∧
      t.blk.dmaSource.toNat = d0.toNat + 256 * d1.toNat + 65536 * d2.toNat ∧
      t.blk = { s.blk with dmaSource := t.blk.dmaSource }) ∧
    (∀ l, l.Perm [Instr.wrDmatgtL a d0, .wrDmatgtM a d1, .wrDmatgtH a d2] → ∃ t, execAll l s = .next t ∧
      t.blk.dmaTarget.toNat = d0.toNat + 256 * d1.toNat + 65536 * d2.toNat ∧
      t.blk = { s.blk with dmaTarget := t.blk.dmaTarget, dmaPending := t.blk.dmaPending, dmaLatch := t.blk.dmaLatch } ∧
      (s.blk.halt = true → l.getLast? = some (.wrDmatgtH a d2) → t.blk.dmaPending = true ∧ t.blk.dmaLatch.tgt = t.blk.dmaTarget)) ∧
    (∀ l, l.Perm [Instr.wrProgofsL a d0, .wrProgofsM a d1, .wrProgofsH a d2] → ∃ t, execAll l s = .next t ∧
      t.blk.programOffset.toNat = d0.toNat + 256 * d1.toNat + 65536 * d2.toNat ∧
      t.blk = { s.blk with programOffset := t.blk.programOffset }) ∧
    (∀ (r : Nat) (hr : r < 16) (l : List Instr),
      l.Perm [decodeWrite a (BitVec.ofNat 13 (0x1F80 + 3 * r)) d0, decodeWrite a (BitVec.ofNat 13 (0x1F80 + 3 * r + 1)) d1,
        decodeWrite a (BitVec.ofNat 13 (0x1F80 + 3 * r + 2)) d2] → ∃ t, execAll l s = .next t ∧
      t.blk.gpr[r].toNat = d0.toNat + 256 * d1.toNat + 65536 * d2.toNat ∧ t.blk = { s.blk with gpr := t.blk.gpr } ∧
      ∀ (j : Nat) (h : j < 16), j ≠ r → t.blk.gpr[j] = s.blk.gpr[j]) ∧
    (∀ l, l.Perm [Instr.wrDmalenL a d0, .wrDmalenH a d1] → ∃ t, execAll l s = .next t ∧
      t.blk.dmaLength.toNat = d0.toNat + 256 * d1.toNat ∧ t.blk = { s.blk with dmaLength := t.blk.dmaLength }) ∧
    (∀ l, l.Perm [Instr.wrPageL a d0, .wrPageH a d1] → ∃ t, execAll l s = .next t ∧
      t.blk.pageNumber.toNat = (d0.toNat + 256 * d1.toNat) % 32768 ∧ t.blk = { s.blk with pageNumber := t.blk.pageNumber })

/-- While Running no window write arms a DMA, starts a load, changes a lock, frees a stuck Engine or restarts the chip. While
Running a write of any byte to any offset of the window completes and leaves dmaPending and its latch, the transfer in progress,
cacheLoading and its latch, both banks with their locks and tags, the entry address, the active bank and a stuck Engine as they
were. That only an unlock while Halted frees a stuck Engine is R210's with R175 (notes/assumptions/19.md). -/
def Obligations.GatedWritesWhileRunning : Prop :=
  ∀ (a : Access) (o : Offset) (d : Byte) (s : State), a.wellFormed = true → s.blk.halt = false →
    ∃ i t, decode (windowTxn a.dbg true a.bank o d) = .ok i ∧ exec i s = .next t ∧
      t.blk.dmaPending = s.blk.dmaPending ∧ t.blk.dmaLatch = s.blk.dmaLatch ∧ t.blk.dmaActive = s.blk.dmaActive ∧
      t.blk.dmaCur = s.blk.dmaCur ∧ t.blk.cacheLoading = s.blk.cacheLoading ∧ t.blk.cload = s.blk.cload ∧
      t.blk.bank0 = s.blk.bank0 ∧ t.blk.bank1 = s.blk.bank1 ∧ t.blk.pcFull = s.blk.pcFull ∧ t.blk.cachePage = s.blk.cachePage ∧
      t.engineStuck = s.engineStuck

/-- No host or debug transaction ever faults, sticks or is refused. Whatever the state, a step that takes a window transaction, a
ROM-port read or a speed query answers a next state; the schedule moves on by that one entry, and nothing is marked as stuck. -/
def Obligations.HostTransactionsComplete : Prop :=
  ∀ (s : State) (x : Txn) (rest : List Entry) (i : Instr), s.inbox = .txn x :: rest → decode x = .ok i → HostTransaction i →
    ∃ t ev, step s = .next t ∧ exec i { s with inbox := rest } = .next t ∧ t.inbox = rest ∧ t.trace = s.trace ++ ev ∧
      ∀ f, BusEvent.stuck f ∉ ev

/-- A ROM-port read passes through, or reads the vector table, or reads 0. A chip-side read passes through with no Sync. A host
read, after its Sync, passes through when the chip is neither suspended nor busy; otherwise it returns vector byte addr mod 32
where bit 6 of the bank is clear and the low 16 bits are 0xFFE0 or above, and 0 elsewhere, without reaching the cartridge. S never
changes. The vector window is R112's default, which the spec marks as general knowledge; what the cartridge answers is a free
value (notes/assumptions/7.md). -/
def Obligations.RomReads : Prop :=
  (∀ (s : State) (addr : Addr), ∃ t v, CartReads s t addr v ∧
      exec (.romRead .chip addr) s = .next (t.emit (.readData v))) ∧
  (∀ (s : State) (addr : Addr), s.blk.LetsThrough → ∃ t v, CartReads (s.emit (.sync .host)) t addr v ∧
      exec (.romRead .host addr) s = .next (t.emit (.readData v))) ∧
  (∀ (s : State) (addr : Addr), ¬ s.blk.LetsThrough →
      exec (.romRead .host addr) s = .next { s with trace := s.trace ++ [.sync .host, .readData
        (if addr.toNat / 0x400000 % 2 = 0 ∧ 0xFFE0 ≤ addr.toNat % 0x10000 then
          s.blk.vector[addr.toNat % 32]'(Nat.mod_lt _ (by decide)) else 0)] })

/-- A speed query returns the RAM class, the ROM class or 0, and has no side effect. The query completes with no Sync and no
change of S; the class is ramSpeed where IsCartRAM holds, else romSpeed where IsCartROM holds, else 0, whatever those two open
parameters are. -/
def Obligations.SpeedQuery : Prop :=
  ∀ (s : State) (addr : Addr), ∃ c : BitVec 3, exec (.speedQuery addr) s = .next { s with trace := s.trace ++ [.speedClass c] } ∧
    (Config.isCartRAM addr = true → c = s.blk.ramSpeed) ∧
    (Config.isCartRAM addr = false → Config.isCartROM addr = true → c = s.blk.romSpeed) ∧
    (Config.isCartRAM addr = false → Config.isCartROM addr = false → c = 0)

/-- DMA-START loads the address generator from the latch exactly when it is enabled. With a transfer armed, none active, the chip
Halted and no load begun, DMA-START completes: the transfer is active, no longer pending, and the address generator holds the
latched source, target and length; nothing else changes. In every other state it is stuck. -/
def Obligations.DmaStart : Prop :=
  ∀ s : State,
    (s.blk.DmaMayStart → ∃ n : BitVec 17, n.toNat = s.blk.dmaLatch.len.toNat ∧
      exec .dmaStart s = .next (s.setBlk
        { s.blk with
          dmaActive := true
          dmaPending := false
          dmaCur := { src := s.blk.dmaLatch.src, tgt := s.blk.dmaLatch.tgt, remaining := n } })) ∧
    (¬ s.blk.DmaMayStart → exec .dmaStart s = .fault (.controllerStepNotEnabled .dmaStart))

/-- DMA-BYTE copies one byte over the chip bus and advances both addresses. With a transfer active, bytes to go and neither
address in control space, DMA-BYTE completes: the byte read from the source (scratch, 0 past its end, or the cartridge) is written
to the target (scratch, dropped past its end, or the cartridge); both addresses advance modulo 2^24 and the count falls by one;
nothing else changes. The window is R81's default, which the spec marks as general knowledge; that the read comes before the write
is notes/assumptions/13.md. -/
def Obligations.DmaByte : Prop :=
  ∀ s : State, Memory.wf 3072 s.blk.scratch → s.blk.dmaActive = true → s.blk.dmaCur.remaining.toNat ≠ 0 →
    ¬ InControlSpace s.blk.dmaCur.src → ¬ InControlSpace s.blk.dmaCur.tgt →
    ∃ v s1 s2 c, ChipReads s s1 s.blk.dmaCur.src v ∧ ChipWrites s1 s2 s.blk.dmaCur.tgt v ∧
      exec .dmaByte s = .next (s2.setBlk { s2.blk with dmaCur := c }) ∧
      c.src.toNat = (s.blk.dmaCur.src.toNat + 1) % 2 ^ 24 ∧ c.tgt.toNat = (s.blk.dmaCur.tgt.toNat + 1) % 2 ^ 24 ∧
      c.remaining.toNat + 1 = s.blk.dmaCur.remaining.toNat

/-- A chip-bus access to the block's own control space is refused by name. An enabled DMA-BYTE whose source or target, an enabled
CLOAD-BYTE whose source, and an ENG-BUS access, granted and the Engine not stuck, whose address is in the window at offsets 0x1C00
to 0x1FFF is refused as dmaControlSpace. The window is R81's default, which the spec marks as general knowledge. -/
def Obligations.ControlSpaceIsRefused : Prop :=
  (∀ s : State, s.blk.dmaActive = true → s.blk.dmaCur.remaining.toNat ≠ 0 →
    (InControlSpace s.blk.dmaCur.src ∨ InControlSpace s.blk.dmaCur.tgt) → exec .dmaByte s = .refused .dmaControlSpace) ∧
  (∀ s : State, s.blk.LoadMayContinue → InControlSpace s.blk.cload.addr → exec .cloadByte s = .refused .dmaControlSpace) ∧
  (∀ (s : State) (addr : Addr) (d : Byte), s.EngineMayStep → InControlSpace addr →
    exec (.engBus (.read addr)) s = .refused .dmaControlSpace ∧ exec (.engBus (.write addr d)) s = .refused .dmaControlSpace)

/-- DMA-DONE ends the transfer exactly when no byte is left, and changes nothing else. With a transfer active and no byte to go,
DMA-DONE completes and clears dmaActive; nothing else changes, so the step leaves dmaSource, dmaLength and dmaTarget alone. In
every other state it is stuck. -/
def Obligations.DmaDone : Prop :=
  ∀ s : State,
    (s.blk.dmaActive = true ∧ s.blk.dmaCur.remaining.toNat = 0 → exec .dmaDone s = .next (s.setBlk { s.blk with dmaActive := false })) ∧
    (¬ (s.blk.dmaActive = true ∧ s.blk.dmaCur.remaining.toNat = 0) → exec .dmaDone s = .fault (.controllerStepNotEnabled .dmaDone))

/-- CLOAD-BYTE stores the next byte of the source in the bank being loaded. With a load running, fewer than 512 bytes there, the
bus the loader's and the source not in control space, CLOAD-BYTE completes: the byte read is stored at the count in the loading
bank, the source address advances modulo 2^24 and the count rises by one; nothing else changes. The window is R81's default, which
the spec marks as general knowledge. -/
def Obligations.CloadByte : Prop :=
  ∀ s : State, Memory.wf 512 (s.blk.bank s.blk.cload.bank).mem → s.blk.LoadMayContinue → ¬ InControlSpace s.blk.cload.addr →
    ∃ v s1 m addr count, ChipReads s s1 s.blk.cload.addr v ∧
      StoresByte 512 (s.blk.bank s.blk.cload.bank).mem m s.blk.cload.count.toNat v ∧
      addr.toNat = (s.blk.cload.addr.toNat + 1) % 2 ^ 24 ∧ count.toNat = s.blk.cload.count.toNat + 1 ∧
      exec .cloadByte s = .next (s1.setBlk
        { (s.blk.setBank s.blk.cload.bank { s.blk.bank s.blk.cload.bank with mem := m }) with
          cload := { s.blk.cload with addr := addr, count := count } })

/-- CLOAD-DONE makes the loaded bank's tag valid, and the bank active after a fill. With a load running, all 512 bytes there and
no DMA active, CLOAD-DONE completes: cacheLoading is cleared, the bank's tag is valid with the latched page, and after an Engine
fill that bank becomes the active one, after a preload the active bank stays; nothing else changes. That no DMA may be active is
R200's (notes/assumptions/12.md), and no state that keeps the invariant has one then. -/
def Obligations.CloadDone : Prop :=
  ∀ s : State, s.blk.cacheLoading = true → s.blk.cload.count.toNat = 512 → s.blk.dmaActive = false →
    exec .cloadDone s = .next (s.setBlk
      { (s.blk.setBank s.blk.cload.bank { s.blk.bank s.blk.cload.bank with valid := true, page := s.blk.cload.page }) with
        cacheLoading := false
        cachePage := if s.blk.cload.fill then s.blk.cload.bank else s.blk.cachePage })

/-- SUSP-EXPIRE ends a suspend that has a count, and never one without. While suspended with a count above 0, SUSP-EXPIRE
completes and clears the flag and the count; nothing else changes. Not suspended, or suspended with count 0 (SuspendZero at its
default, Indefinite, which the spec marks as general knowledge), it is stuck. -/
def Obligations.SuspendExpiry : Prop :=
  ∀ s : State,
    (s.blk.suspend = true ∧ s.blk.suspendCycles.toNat ≠ 0 → ∃ z : BitVec 8, z.toNat = 0 ∧
      exec .suspExpire s = .next (s.setBlk { s.blk with suspend := false, suspendCycles := z })) ∧
    (¬ (s.blk.suspend = true ∧ s.blk.suspendCycles.toNat ≠ 0) → exec .suspExpire s = .fault (.controllerStepNotEnabled .suspExpire))

/-- A transfer step that is not enabled is stuck. DMA-BYTE without an active transfer or without a byte to go, CLOAD-BYTE in a
state where the loader may not go on, and CLOAD-DONE without a load, before its 512th byte, or while a DMA is active, are stuck.
The last condition is R200's (notes/assumptions/12.md). -/
def Obligations.ControllerStepsStuckWhenNotEnabled : Prop :=
  ∀ s : State,
    (¬ (s.blk.dmaActive = true ∧ s.blk.dmaCur.remaining.toNat ≠ 0) →
      exec .dmaByte s = .fault (.controllerStepNotEnabled .dmaByte)) ∧
    (¬ s.blk.LoadMayContinue → exec .cloadByte s = .fault (.controllerStepNotEnabled .cloadByte)) ∧
    (¬ (s.blk.cacheLoading = true ∧ s.blk.cload.count.toNat = 512 ∧ s.blk.dmaActive = false) →
      exec .cloadDone s = .fault (.controllerStepNotEnabled .cloadDone))

/-- No Engine event happens while the chip is Halted, suspended, transferring or loading. engineGrant holds exactly when halt,
suspend, dmaActive and cacheLoading are all 0; while it does not, each of the five Engine events is stuck and has no effect. -/
def Obligations.EngineNeedsGrant : Prop :=
  ∀ s : State, (s.blk.engineGrant = true ↔ s.blk.Granted) ∧
    (¬ s.blk.Granted → ∀ (i : BitVec 4) (v : BitVec 24) (p : BitVec 15) (b : Bank) (acc : BusAccess),
      exec .engHalt s = .fault .engineNotGranted ∧ exec (.engGpr i v) s = .fault .engineNotGranted ∧
      exec (.engFill p) s = .fault .engineNotGranted ∧ exec (.engPage b) s = .fault .engineNotGranted ∧
      exec (.engBus acc) s = .fault .engineNotGranted)

/-- A granted Engine event halts the chip, writes a whole register, or switches to a valid bank. While granted, and no locked miss
has left the Engine stuck (R210), ENG-HALT completes and sets halt; ENG-GPR completes and replaces the whole 24-bit register, no
other; ENG-PAGE completes and makes the bank active if its tag is valid, and is stuck if not. Nothing else changes. -/
def Obligations.EngineHaltGprPage : Prop :=
  ∀ (s : State) (i : BitVec 4) (v : BitVec 24) (b : Bank), s.EngineMayStep →
    exec .engHalt s = .next (s.setBlk { s.blk with halt := true }) ∧
    (∃ g : Vector (BitVec 24) 16, exec (.engGpr i v) s = .next (s.setBlk { s.blk with gpr := g }) ∧
      ∀ (j : Nat) (h : j < 16), g[j] = if j = i.toNat then v else s.blk.gpr[j]) ∧
    ((s.blk.bank b).valid = true → exec (.engPage b) s = .next (s.setBlk { s.blk with cachePage := b })) ∧
    ((s.blk.bank b).valid = false → exec (.engPage b) s = .fault (.engineBankInvalid b))

/-- ENG-FILL loads the missing page into the bank that is not active, or the active one if that is locked. While granted, the
Engine not stuck, with neither bank holding the page and some bank unlocked, ENG-FILL completes: it starts a load with fill 1 and
count 0 from (programOffset + page × 512) mod 2^24 into the bank that is not active if that is unlocked, else into the active one,
and makes that bank's tag invalid; nothing else changes. With the page held it is stuck. The source address is R206's, which the
spec marks as general knowledge. -/
def Obligations.EngineFill : Prop :=
  ∀ (s : State) (p : BitVec 15), s.EngineMayStep →
    (∀ k : Bank, s.blk.Misses p →
      (((s.blk.bank (otherBank s.blk.cachePage)).lock = false ∧ k = otherBank s.blk.cachePage) ∨
        ((s.blk.bank (otherBank s.blk.cachePage)).lock = true ∧ (s.blk.bank s.blk.cachePage).lock = false ∧ k = s.blk.cachePage)) →
      ∃ addr : Addr, addr.toNat = (s.blk.programOffset.toNat + p.toNat * 512) % 2 ^ 24 ∧
        exec (.engFill p) s = .next (s.setBlk
          { (s.blk.setBank k { s.blk.bank k with valid := false }) with
            cacheLoading := true
            cload := { bank := k, page := p, addr := addr, count := 0, fill := true } })) ∧
    (¬ s.blk.Misses p → exec (.engFill p) s = .fault (.enginePageHeld p))

/-- A miss with both banks locked leaves the Engine no step, and is served once the host unlocks a bank. While granted, with both
banks locked and neither holding the page, ENG-FILL is stuck (LockedMissPolicy at its default), and a step that takes it leaves
the Engine stuck and changes nothing else but the trace. A stuck Engine, though granted, takes no event: each of the five is
stuck, and a step that takes one changes nothing but the trace. After the host halts the chip, writes the lock byte with bit 0 or
bit 1 clear and starts the chip again, the Engine is not stuck, and the same ENG-FILL completes and a load of the page is running.
What ends being stuck is notes/assumptions/19.md. -/
def Obligations.LockedMissRecovers : Prop :=
  (∀ (s : State) (p : BitVec 15), s.EngineMayStep → s.blk.Misses p → s.blk.bank0.lock = true → s.blk.bank1.lock = true →
    exec (.engFill p) s = .fault (.lockedMissStuck p) ∧
    ∀ (x : Txn) (rest : List Entry), s.inbox = .txn x :: rest → decode x = .ok (.engFill p) →
      step s = .next { s with inbox := rest, engineStuck := true, trace := s.trace ++ [.stuck (.lockedMissStuck p)] }) ∧
  (∀ (s : State) (e : Instr), s.blk.Granted → s.engineStuck = true → EngineEvent e →
    exec e s = .fault .engineStuck ∧
    ∀ (x : Txn) (rest : List Entry), s.inbox = .txn x :: rest → decode x = .ok e →
      step s = .next { s with inbox := rest, trace := s.trace ++ [.stuck .engineStuck] }) ∧
  (∀ (s : State) (p : BitVec 15) (a : Access) (x d pc : Byte), s.blk.Granted → s.blk.Misses p →
    s.blk.bank0.lock = true → s.blk.bank1.lock = true → d.toNat % 4 ≠ 3 →
    ∃ t u, execAll [.wrHalt a x, .wrCachelock a d, .wrPc a pc] s = .next t ∧ t.engineStuck = false ∧
      exec (.engFill p) t = .next u ∧ u.blk.cacheLoading = true ∧ u.blk.cload.page = p ∧ u.blk.cload.fill = true)

/-- ENG-BUS reads and writes scratch memory or the cartridge over the chip bus. While granted, the Engine not stuck, and with the
address not in control space, an ENG-BUS read completes, returns the byte to the Engine and changes no field of S, and an ENG-BUS
write completes and stores the byte in scratch memory or reaches the cartridge; nothing else changes. The window is R81's default,
which the spec marks as general knowledge; that the byte read is an event of the trace is notes/assumptions/13.md. -/
def Obligations.EngineBus : Prop :=
  ∀ (s : State) (addr : Addr) (d : Byte), Memory.wf 3072 s.blk.scratch → s.EngineMayStep → ¬ InControlSpace addr →
    (∃ t v, ChipReads s t addr v ∧ exec (.engBus (.read addr)) s = .next (t.emit (.engineData v))) ∧
    (∃ t, ChipWrites s t addr d ∧ exec (.engBus (.write addr d)) s = .next t)

/-- Every step keeps the invariant of the block, and both banks locked under a stuck Engine. From every state that meets it, every
step that answers a next state keeps it: the memories stay canonical, the suspend count stays a multiple of 32, a running load has
at most 512 bytes and an invalid tag, a DMA transfer never overlaps a started load, and a transfer has at most 65535 bytes to go.
From every state that meets it and in which a stuck Engine has both banks locked, the step keeps that as well (R210). -/
def Obligations.StepKeepsInvariant : Prop :=
  ∀ s t : State, step s = .next t → (s.blk.Inv → t.blk.Inv) ∧ (s.Inv → t.Inv)

/-- halt is cleared only by the program-counter write and set only by a halt request, ENG-HALT or a reset; a locked miss sticks
until an unlock. A step that takes the chip from Halted to Running takes a program-counter write; a step that takes it from
Running to Halted takes a halt request, an ENG-HALT or a host-system reset. A step that leaves the Engine stuck takes an ENG-FILL
of a page no bank holds with both banks locked; a step that frees it takes a lock write that leaves a bank unlocked, while Halted,
or a host-system reset: no halt request or run start does (notes/assumptions/19.md). -/
def Obligations.RunStateTransitions : Prop :=
  ∀ s t : State, step s = .next t →
    (s.blk.halt = true → t.blk.halt = false → ∃ a d, s.Takes (.wrPc a d)) ∧
    (s.blk.halt = false → t.blk.halt = true → (∃ a d, s.Takes (.wrHalt a d)) ∨ s.Takes .engHalt ∨ s.TakesReset) ∧
    (s.engineStuck = false → t.engineStuck = true →
      ∃ p, s.Takes (.engFill p) ∧ s.blk.Granted ∧ s.blk.Misses p ∧ s.blk.bank0.lock = true ∧ s.blk.bank1.lock = true) ∧
    (s.engineStuck = true → t.engineStuck = false →
      (∃ a d, s.Takes (.wrCachelock a d) ∧ s.blk.halt = true ∧ d.toNat % 4 ≠ 3) ∨ s.TakesReset)

/-- Bank contents change only by a byte of a load into that bank, and lock bits only by a lock write while Halted. Unless a
host-system reset is taken, a step that changes the contents of a bank takes a CLOAD-BYTE of a load into that bank, whose tag is
invalid where the invariant holds, and a step that changes a lock bit takes a lock write while the chip is Halted. -/
def Obligations.BankContentsAndLocks : Prop :=
  ∀ s t : State, step s = .next t → ¬ s.TakesReset →
    ∀ b : Bank, ((t.blk.bank b).mem ≠ (s.blk.bank b).mem →
        s.Takes .cloadByte ∧ s.blk.cacheLoading = true ∧ s.blk.cload.bank = b ∧ (s.blk.Inv → (s.blk.bank b).valid = false)) ∧
      ((t.blk.bank b).lock ≠ (s.blk.bank b).lock → (∃ a d, s.Takes (.wrCachelock a d)) ∧ s.blk.halt = true)

/-- An armed transfer of n bytes completes after exactly n DMA-BYTE steps and one DMA-DONE. With a transfer of n bytes armed and
able to start and none of its addresses in control space, DMA-START, n DMA-BYTE steps and DMA-DONE complete, with the DMA
registers as programmed and nothing but the scratch memory and the address generator changed in S; before the last byte DMA-DONE
is stuck, after it DMA-BYTE is stuck; with n = 0 no access is made. R204 is a rule the spec marks as derived. -/
def Obligations.DmaTakesExactlyItsLength : Prop :=
  ∀ (s : State) (n : Nat), s.blk.DmaMayStart → s.blk.dmaLatch.len.toNat = n →
    (∀ k < n, ¬ InControlSpace (s.blk.dmaLatch.src + BitVec.ofNat 24 k) ∧
      ¬ InControlSpace (s.blk.dmaLatch.tgt + BitVec.ofNat 24 k)) →
    (∃ t, execAll (.dmaStart :: List.replicate n .dmaByte ++ [.dmaDone]) s = .next t ∧
      t.blk = { s.blk with dmaPending := false, dmaCur := t.blk.dmaCur, scratch := t.blk.scratch } ∧
      t.blk.dmaCur.remaining.toNat = 0 ∧ (n = 0 → t.blk.scratch = s.blk.scratch ∧ t.trace = s.trace)) ∧
    (∀ k ≤ n, ∃ u, execAll (.dmaStart :: List.replicate k .dmaByte) s = .next u ∧
      (k < n → exec .dmaDone u = .fault (.controllerStepNotEnabled .dmaDone)) ∧
      (k = n → exec .dmaByte u = .fault (.controllerStepNotEnabled .dmaByte)))

/-- A whole DMA from the cartridge leaves scratch memory with the bytes the cartridge answered. With a transfer of n bytes armed
and able to start, every source address the cartridge's, the target addresses n consecutive scratch bytes, and the cartridge
answering n given bytes, the transfer's n + 2 steps complete, the target bytes read as the bytes answered in order, and every
other scratch byte reads as before. The window is R81's default, which the spec marks as general knowledge; that the cartridge
answers from a list of given bytes is notes/assumptions/7.md. -/
def Obligations.DmaCopiesCartridgeToScratch : Prop :=
  ∀ (s : State) (j : Nat) (bytes rest : List Byte), s.blk.DmaMayStart → Memory.wf 3072 s.blk.scratch →
    s.blk.dmaLatch.len.toNat = bytes.length → s.cartIn = bytes ++ rest → j + bytes.length ≤ 3072 →
    (∀ k < bytes.length, OnCartridge (s.blk.dmaLatch.src + BitVec.ofNat 24 k) ∧
      ReachesScratch (s.blk.dmaLatch.tgt + BitVec.ofNat 24 k) (j + k)) →
    ∃ t, execAll (.dmaStart :: List.replicate bytes.length .dmaByte ++ [.dmaDone]) s = .next t ∧ t.cartIn = rest ∧
      t.blk = { s.blk with dmaPending := false, dmaCur := t.blk.dmaCur, scratch := t.blk.scratch } ∧
      ∀ m, Memory.read t.blk.scratch m =
        if j ≤ m ∧ m < j + bytes.length then bytes.getD (m - j) 0 else Memory.read s.blk.scratch m

/-- A preload from the cartridge leaves the named bank with the page's 512 bytes and a valid tag. Halted, with no DMA armed or
active, a preload write, 512 CLOAD-BYTE steps and CLOAD-DONE complete when every source address is the cartridge's and it answers
512 given bytes: the bank the write named holds those bytes in order with a valid tag for the page number, whatever its lock bit,
and the active bank, the locks and the other bank are as they were. The source address is R206's and the window R81's, which the
spec marks as general knowledge; that the cartridge answers from a list of given bytes is notes/assumptions/7.md. -/
def Obligations.PreloadLoadsWholePage : Prop :=
  ∀ (s : State) (a : Access) (d : Byte) (k : Bank) (bytes rest : List Byte), s.blk.Inv → s.blk.halt = true →
    s.blk.dmaActive = false → s.blk.dmaPending = false → (k = if d.toNat % 2 = 1 then .b1 else .b0) →
    bytes.length = 512 → s.cartIn = bytes ++ rest →
    (∀ n < 512, OnCartridge (BitVec.ofNat 24 (s.blk.programOffset.toNat + s.blk.pageNumber.toNat * 512 + n))) →
    ∃ t m, execAll (.wrCpreload a d :: List.replicate 512 .cloadByte ++ [.cloadDone]) s = .next t ∧ t.cartIn = rest ∧
      t.blk = { (s.blk.setBank k { s.blk.bank k with mem := m, valid := true, page := s.blk.pageNumber }) with
        cachePreload := decide (d.toNat % 2 = 1)
        cload := t.blk.cload
        cacheLoading := false } ∧
      ∀ n, Memory.read m n = bytes.getD n 0

end
end

