-- ==== Sys2Proof/Laws/State.lean ====
section
/-! SUPPORT. What each update of the state changes, one lemma per field, true by definition: no later proof unfolds a record update. -/

namespace Sys2Proof.Machine

variable (s : State) (b : Block) (e : BusEvent) (a : Access) (d : Byte) (addr : Addr)

/-! ## State.setBlk, State.emit -/

@[simp] theorem setBlk_blk : (s.setBlk b).blk = b := rfl
@[simp] theorem setBlk_engineStuck : (s.setBlk b).engineStuck = s.engineStuck := rfl
@[simp] theorem setBlk_inbox : (s.setBlk b).inbox = s.inbox := rfl
@[simp] theorem setBlk_cartIn : (s.setBlk b).cartIn = s.cartIn := rfl
@[simp] theorem setBlk_draws : (s.setBlk b).draws = s.draws := rfl
@[simp] theorem setBlk_trace : (s.setBlk b).trace = s.trace := rfl

@[simp] theorem emit_blk : (s.emit e).blk = s.blk := rfl
@[simp] theorem emit_engineStuck : (s.emit e).engineStuck = s.engineStuck := rfl
@[simp] theorem emit_inbox : (s.emit e).inbox = s.inbox := rfl
@[simp] theorem emit_cartIn : (s.emit e).cartIn = s.cartIn := rfl
@[simp] theorem emit_draws : (s.emit e).draws = s.draws := rfl
@[simp] theorem emit_trace : (s.emit e).trace = s.trace ++ [e] := rfl

/-! ## The state after a window transaction -/

@[simp] theorem afterRead_blk : (s.afterRead a d).blk = s.blk := rfl
@[simp] theorem afterRead_engineStuck : (s.afterRead a d).engineStuck = s.engineStuck := rfl
@[simp] theorem afterRead_inbox : (s.afterRead a d).inbox = s.inbox := rfl
@[simp] theorem afterRead_cartIn : (s.afterRead a d).cartIn = s.cartIn := rfl
@[simp] theorem afterRead_draws : (s.afterRead a d).draws = s.draws := rfl
@[simp] theorem afterRead_trace : (s.afterRead a d).trace = s.trace ++ (syncEvents a ++ [.readData d]) := rfl

@[simp] theorem afterWrite_blk : (s.afterWrite a b).blk = b := rfl
@[simp] theorem afterWrite_engineStuck : (s.afterWrite a b).engineStuck = s.engineStuck := rfl
@[simp] theorem afterWrite_inbox : (s.afterWrite a b).inbox = s.inbox := rfl
@[simp] theorem afterWrite_cartIn : (s.afterWrite a b).cartIn = s.cartIn := rfl
@[simp] theorem afterWrite_draws : (s.afterWrite a b).draws = s.draws := rfl
@[simp] theorem afterWrite_trace : (s.afterWrite a b).trace = s.trace ++ syncEvents a := rfl

/-! ## A cartridge read -/

@[simp] theorem cartTaken_blk : (s.cartTaken addr).blk = s.blk := by
  unfold State.cartTaken; split <;> rfl

@[simp] theorem cartTaken_engineStuck : (s.cartTaken addr).engineStuck = s.engineStuck := by
  unfold State.cartTaken; split <;> rfl

@[simp] theorem cartTaken_inbox : (s.cartTaken addr).inbox = s.inbox := by
  unfold State.cartTaken; split <;> rfl

@[simp] theorem cartTaken_cartIn : (s.cartTaken addr).cartIn = s.cartIn.tail := by
  unfold State.cartTaken; split <;> simp_all

@[simp] theorem cartTaken_trace : (s.cartTaken addr).trace = s.trace ++ [.cartRead addr (s.cartAnswer addr)] := by
  unfold State.cartTaken; split <;> rfl

/-! ## A lock write's effect on a stuck Engine -/

/-- Stuck before, and not freed by a write that leaves a lock bit 0 while Halted. Nothing else changes. -/
theorem freeEngine_eq :
    s.freeEngine d = { s with engineStuck := s.engineStuck && !(s.blk.halt && !(d.getLsbD 0 && d.getLsbD 1)) } := by
  unfold State.freeEngine
  generalize d.getLsbD 0 = x
  generalize d.getLsbD 1 = y
  cases h : s.blk.halt <;> cases x <;> cases y <;> simp

@[simp] theorem freeEngine_blk : (s.freeEngine d).blk = s.blk := by rw [freeEngine_eq]
@[simp] theorem freeEngine_inbox : (s.freeEngine d).inbox = s.inbox := by rw [freeEngine_eq]
@[simp] theorem freeEngine_cartIn : (s.freeEngine d).cartIn = s.cartIn := by rw [freeEngine_eq]
@[simp] theorem freeEngine_draws : (s.freeEngine d).draws = s.draws := by rw [freeEngine_eq]
@[simp] theorem freeEngine_trace : (s.freeEngine d).trace = s.trace := by rw [freeEngine_eq]

/-! ## Bank updates -/

@[simp] theorem bank_b0 : b.bank .b0 = b.bank0 := rfl
@[simp] theorem bank_b1 : b.bank .b1 = b.bank1 := rfl
@[simp] theorem setBank_b0 (x : BankState) : b.setBank .b0 x = { b with bank0 := x } := rfl
@[simp] theorem setBank_b1 (x : BankState) : b.setBank .b1 x = { b with bank1 := x } := rfl
@[simp] theorem otherBank_b0 : otherBank .b0 = .b1 := rfl
@[simp] theorem otherBank_b1 : otherBank .b1 = .b0 := rfl

/-! Replacing a bank leaves every other field alone. -/

section
variable (k : Bank) (x : BankState)
@[simp] theorem setBank_dmaSource : (b.setBank k x).dmaSource = b.dmaSource := by cases k <;> rfl
@[simp] theorem setBank_dmaLength : (b.setBank k x).dmaLength = b.dmaLength := by cases k <;> rfl
@[simp] theorem setBank_dmaTarget : (b.setBank k x).dmaTarget = b.dmaTarget := by cases k <;> rfl
@[simp] theorem setBank_cachePreload : (b.setBank k x).cachePreload = b.cachePreload := by cases k <;> rfl
@[simp] theorem setBank_programOffset : (b.setBank k x).programOffset = b.programOffset := by cases k <;> rfl
@[simp] theorem setBank_pageNumber : (b.setBank k x).pageNumber = b.pageNumber := by cases k <;> rfl
@[simp] theorem setBank_programCounter : (b.setBank k x).programCounter = b.programCounter := by cases k <;> rfl
@[simp] theorem setBank_ramSpeed : (b.setBank k x).ramSpeed = b.ramSpeed := by cases k <;> rfl
@[simp] theorem setBank_romSpeed : (b.setBank k x).romSpeed = b.romSpeed := by cases k <;> rfl
@[simp] theorem setBank_r1f51 : (b.setBank k x).r1f51 = b.r1f51 := by cases k <;> rfl
@[simp] theorem setBank_r1f52 : (b.setBank k x).r1f52 = b.r1f52 := by cases k <;> rfl
@[simp] theorem setBank_vector : (b.setBank k x).vector = b.vector := by cases k <;> rfl
@[simp] theorem setBank_gpr : (b.setBank k x).gpr = b.gpr := by cases k <;> rfl
@[simp] theorem setBank_scratch : (b.setBank k x).scratch = b.scratch := by cases k <;> rfl
@[simp] theorem setBank_halt : (b.setBank k x).halt = b.halt := by cases k <;> rfl
@[simp] theorem setBank_pcFull : (b.setBank k x).pcFull = b.pcFull := by cases k <;> rfl
@[simp] theorem setBank_cachePage : (b.setBank k x).cachePage = b.cachePage := by cases k <;> rfl
@[simp] theorem setBank_dmaPending : (b.setBank k x).dmaPending = b.dmaPending := by cases k <;> rfl
@[simp] theorem setBank_cacheLoading : (b.setBank k x).cacheLoading = b.cacheLoading := by cases k <;> rfl
@[simp] theorem setBank_suspend : (b.setBank k x).suspend = b.suspend := by cases k <;> rfl
@[simp] theorem setBank_suspendCycles : (b.setBank k x).suspendCycles = b.suspendCycles := by cases k <;> rfl
@[simp] theorem setBank_dmaLatch : (b.setBank k x).dmaLatch = b.dmaLatch := by cases k <;> rfl
@[simp] theorem setBank_dmaActive : (b.setBank k x).dmaActive = b.dmaActive := by cases k <;> rfl
@[simp] theorem setBank_dmaCur : (b.setBank k x).dmaCur = b.dmaCur := by cases k <;> rfl
@[simp] theorem setBank_cload : (b.setBank k x).cload = b.cload := by cases k <;> rfl
end

/-- Reading back the bank that was replaced. -/
@[simp] theorem bank_setBank_same (k : Bank) (x : BankState) : (b.setBank k x).bank k = x := by cases k <;> rfl

/-- Replacing a bank leaves the other one alone. -/
@[simp] theorem bank_setBank_other (k : Bank) (x : BankState) : (b.setBank k x).bank (otherBank k) = b.bank (otherBank k) := by
  cases k <;> rfl

@[simp] theorem bit_ofBit (x : Bool) : (Bank.ofBit x).bit = x := by cases x <;> rfl
@[simp] theorem ofBit_bit (k : Bank) : Bank.ofBit k.bit = k := by cases k <;> rfl

end Sys2Proof.Machine
end

