-- ==== Sys2Proof/Laws/Memory.lean ====
section
/-! SUPPORT. The laws of byte memory: a read after a write, the frame of a write, and the canonical form, which every operation
keeps and in which equal contents are equal lists. -/

namespace Sys2Proof.Machine.Memory

/-- Every address listed in `m` is at least `lo`. -/
abbrev AtLeast (lo : Nat) (m : Memory) : Prop := ∀ c ∈ m, lo ≤ c.1

@[simp] theorem read_nil (a : Nat) : read [] a = unlisted := rfl

@[simp] theorem read_cons (b : Nat) (v : Byte) (m : Memory) (a : Nat) : read ((b, v) :: m) a = if b = a then v else read m a := rfl

/-- An address below every listed one reads as unlisted. -/
theorem read_of_below {m : Memory} {a lo : Nat} (h : AtLeast lo m) (ha : a < lo) : read m a = unlisted := by
  induction m with
  | nil => rfl
  | cons c m ih =>
    obtain ⟨b, v⟩ := c
    have hb : lo ≤ b := h (b, v) (List.mem_cons_self ..)
    rw [read_cons, if_neg (by omega)]
    exact ih fun c hc => h c (List.mem_cons_of_mem _ hc)

theorem atLeast_of_rising {b : Nat} {v : Byte} {m : Memory}
    (h : List.Pairwise (fun c c' : Host.Cell => c.1 < c'.1) ((b, v) :: m)) : AtLeast (b + 1) m :=
  fun c hc => (List.pairwise_cons.mp h).1 c hc

/-- `cons` in front of a memory that lies above the address. -/
theorem read_memcons {m : Memory} {a : Nat} (v : Byte) (j : Nat) (h : AtLeast (a + 1) m) :
    read (cons a v m) j = if j = a then v else read m j := by
  unfold cons
  by_cases hv : v = unlisted
  · rw [if_pos hv]
    by_cases hj : j = a
    · rw [if_pos hj, hj, hv, read_of_below h (by omega)]
    · rw [if_neg hj]
  · rw [if_neg hv, read_cons]
    by_cases hj : j = a
    · rw [if_pos hj, if_pos hj.symm]
    · rw [if_neg hj, if_neg fun e => hj e.symm]

/-- The one law of a write: the written address reads the byte, every other address reads as before. -/
theorem read_write {m : Memory} (h : m.Pairwise (fun c c' => c.1 < c'.1)) (a : Nat) (d : Byte) (j : Nat) :
    read (write m a d) j = if j = a then d else read m j := by
  induction m with
  | nil => exact read_memcons d j (fun c hc => by cases hc)
  | cons c m ih =>
    obtain ⟨b, v⟩ := c
    have hm := (List.pairwise_cons.mp h).2
    have hb := atLeast_of_rising h
    unfold write
    by_cases hlt : a < b
    · rw [if_pos hlt]
      refine read_memcons d j fun c hc => ?_
      rcases List.mem_cons.mp hc with rfl | hc
      · exact hlt
      · have := hb c hc; omega
    · rw [if_neg hlt]
      by_cases heq : a = b
      · rw [if_pos heq, read_memcons d j (heq ▸ hb), read_cons]
        by_cases hj : j = a
        · rw [if_pos hj, if_pos hj]
        · rw [if_neg hj, if_neg hj, if_neg (by omega)]
      · rw [if_neg heq, read_cons, read_cons, ih hm]
        by_cases hj : j = a
        · have hbj : ¬ b = j := by omega
          simp only [if_pos hj, if_neg hbj]
        · simp only [if_neg hj]

/-! ## The canonical form -/

theorem wf_nil (size : Nat) : wf size [] := ⟨List.Pairwise.nil, fun c hc => by cases hc⟩

/-- `cons` keeps the canonical form. -/
theorem wf_memcons {size a : Nat} {m : Memory} (v : Byte) (ha : a < size) (hlow : AtLeast (a + 1) m) (h : wf size m) :
    wf size (cons a v m) := by
  unfold cons
  by_cases hv : v = unlisted
  · rwa [if_pos hv]
  · rw [if_neg hv]
    refine ⟨List.pairwise_cons.mpr ⟨fun c hc => hlow c hc, h.1⟩, fun c hc => ?_⟩
    rcases List.mem_cons.mp hc with rfl | hc
    · exact ⟨ha, hv⟩
    · exact h.2 c hc

theorem wf_tail {size : Nat} {c : Host.Cell} {m : Memory} (h : wf size (c :: m)) : wf size m :=
  ⟨(List.pairwise_cons.mp h.1).2, fun c' hc' => h.2 c' (List.mem_cons_of_mem _ hc')⟩

/-- A write lists no address it did not find or write. -/
theorem atLeast_write {lo a : Nat} {m : Memory} (d : Byte) (ha : lo ≤ a) (h : AtLeast lo m) : AtLeast lo (write m a d) := by
  have hcons : ∀ {m' : Memory}, AtLeast lo m' → AtLeast lo (cons a d m') := by
    intro m' hm' c hc
    unfold cons at hc
    split at hc
    · exact hm' c hc
    · rcases List.mem_cons.mp hc with rfl | hc
      · exact ha
      · exact hm' c hc
  induction m with
  | nil => exact hcons fun c hc => by cases hc
  | cons c m ih =>
    obtain ⟨b, v⟩ := c
    have hm : AtLeast lo m := fun c hc => h c (List.mem_cons_of_mem _ hc)
    unfold write
    split
    · exact hcons h
    · split
      · exact hcons hm
      · intro c hc
        rcases List.mem_cons.mp hc with rfl | hc
        · exact h _ (List.mem_cons_self ..)
        · exact ih hm c hc

/-- A write keeps the canonical form. -/
theorem wf_write {size a : Nat} {m : Memory} (d : Byte) (ha : a < size) (h : wf size m) : wf size (write m a d) := by
  induction m with
  | nil => exact wf_memcons d ha (fun c hc => by cases hc) h
  | cons c m ih =>
    obtain ⟨b, v⟩ := c
    have hb := atLeast_of_rising h.1
    unfold write
    by_cases hlt : a < b
    · rw [if_pos hlt]
      refine wf_memcons d ha (fun c hc => ?_) h
      rcases List.mem_cons.mp hc with rfl | hc
      · exact hlt
      · have := hb c hc; omega
    · rw [if_neg hlt]
      by_cases heq : a = b
      · rw [if_pos heq]
        exact wf_memcons d ha (heq ▸ hb) (wf_tail h)
      · rw [if_neg heq]
        have ih' := ih (wf_tail h)
        refine ⟨List.pairwise_cons.mpr ⟨fun c hc => ?_, ih'.1⟩, fun c hc => ?_⟩
        · exact atLeast_write d (by omega) hb c hc
        · rcases List.mem_cons.mp hc with rfl | hc
          · exact h.2 _ (List.mem_cons_self ..)
          · exact ih'.2 c hc

/-- The memory made of any cells is canonical. -/
theorem wf_ofCells (size : Nat) (cells : List Host.Cell) : wf size (ofCells size cells) := by
  suffices h : ∀ (cells : List Host.Cell) (m : Memory), wf size m →
      wf size (cells.foldl (fun m c => if c.1 < size then write m c.1 c.2 else m) m) from h cells [] (wf_nil size)
  intro cells
  induction cells with
  | nil => exact fun m h => h
  | cons c cells ih =>
    intro m h
    refine ih _ ?_
    show wf size (if c.1 < size then write m c.1 c.2 else m)
    split
    · exact wf_write c.2 ‹_› h
    · exact h

/-- An address at or above the size of a canonical memory reads as unlisted. -/
theorem read_of_size_le {size a : Nat} {m : Memory} (h : wf size m) (ha : size ≤ a) : read m a = unlisted := by
  induction m with
  | nil => rfl
  | cons c m ih =>
    obtain ⟨b, v⟩ := c
    have hb := (h.2 (b, v) (List.mem_cons_self ..)).1
    rw [read_cons, if_neg (by simp only at hb; omega)]
    exact ih (wf_tail h)

/-- Writing past the last listed address lists it. -/
theorem write_append {m : Memory} {a : Nat} {v : Byte} (hv : v ≠ unlisted) (h : ∀ c ∈ m, c.1 < a) : write m a v = m ++ [(a, v)] := by
  induction m with
  | nil => exact if_neg hv
  | cons c m ih =>
    obtain ⟨b, w⟩ := c
    have hb : b < a := h (b, w) (by simp)
    simp only [write, show ¬ a < b by omega, show ¬ a = b by omega, if_false]
    rw [ih fun c hc => h c (by simp [hc])]
    rfl

/-- The memory of a canonical list of cells is that list. -/
theorem ofCells_self {size : Nat} {m : Memory} (h : wf size m) : ofCells size m = m := by
  suffices hs : ∀ l acc : Memory, wf size (acc ++ l) →
      l.foldl (fun m c => if c.1 < size then write m c.1 c.2 else m) acc = acc ++ l from hs m [] h
  intro l
  induction l with
  | nil => intro acc _; simp
  | cons c l ih =>
    intro acc hw
    have hc := hw.2 c (by simp)
    have hlt : ∀ x ∈ acc, x.1 < c.1 := fun x hx => (List.pairwise_append.mp hw.1).2.2 x hx c (by simp)
    have e : acc ++ [(c.1, c.2)] ++ l = acc ++ c :: l := by simp
    simp only [List.foldl, hc.1, if_true]
    rw [write_append hc.2 hlt, ih _ (by rw [e]; exact hw), e]

end Sys2Proof.Machine.Memory
end

