-- ==== Sys2Proof/Laws/Ops.lean ====
section
/-! SUPPORT. What each shared operation can do, said once: provers cite these lemmas in place of unfolding the operations. -/

namespace Sys2Proof.Machine

/-! ## Window transactions -/

theorem syncFor_eq (s : State) (a : Access) : s.syncFor a = { s with trace := s.trace ++ syncEvents a } := by
  unfold State.syncFor syncEvents
  cases a.dbg
  · rfl
  · simp

/-- A window read answers the value and changes nothing but the trace. -/
theorem windowRead_eq (a : Access) (f : Block → Byte) (s : State) : windowRead a f s = .next (s.afterRead a (f s.blk)) := by
  simp [windowRead, syncFor_eq, State.emit, State.afterRead]

/-- A window write has its effect on `S` and changes nothing else but the trace. -/
theorem windowWrite_eq (a : Access) (f : Block → Block) (s : State) : windowWrite a f s = .next (s.afterWrite a (f s.blk)) := by
  simp [windowWrite, windowEffect, syncFor_eq, State.setBlk, State.afterWrite]

/-- A lock write: the locks, and the Engine freed if it unlocks a bank while Halted; nothing else changes but the trace. -/
theorem execWrCachelock_eq (a : Access) (d : Byte) (s : State) :
    execWrCachelock a d s = .next
      { s.afterWrite a (s.blk.writeLocks d) with
        engineStuck := s.engineStuck && !(s.blk.halt && !(d.getLsbD 0 && d.getLsbD 1)) } := by
  simp only [execWrCachelock, windowEffect, freeEngine_eq, syncFor_eq, State.setBlk, State.afterWrite]

/-! ## Controller steps and Engine events -/

theorem whenEnabled_next {e : Bool} {k : StepKind} {r : Result} {t : State} :
    whenEnabled e k r = .next t ↔ e = true ∧ r = .next t := by
  unfold whenEnabled; cases e <;> simp

theorem whenEnabled_stuck (k : StepKind) (r : Result) : whenEnabled false k r = .fault (.controllerStepNotEnabled k) := rfl

theorem whenGranted_next {f : State → Result} {s t : State} :
    whenGranted f s = .next t ↔ (s.blk.engineGrant = true ∧ s.engineStuck = false) ∧ f s = .next t := by
  unfold whenGranted; cases s.blk.engineGrant <;> cases s.engineStuck <;> simp

theorem whenGranted_fault {f : State → Result} {s : State} {e : Fault} (h : whenGranted f s = .fault e) :
    (s.blk.engineGrant = false ∧ e = .engineNotGranted) ∨ (s.blk.engineGrant = true ∧ s.engineStuck = true ∧ e = .engineStuck) ∨
      (s.blk.engineGrant = true ∧ s.engineStuck = false ∧ f s = .fault e) := by
  unfold whenGranted at h
  split at h
  · cases h; simp_all
  · split at h
    · cases h; simp_all
    · simp_all

/-- Once granted and not stuck, the event's own effect. -/
theorem whenGranted_granted {f : State → Result} {s : State} (h : s.blk.engineGrant = true) (h' : s.engineStuck = false) :
    whenGranted f s = f s := by
  simp [whenGranted, h, h']

theorem whenGranted_engineStuck {f : State → Result} {s : State} (h : s.blk.engineGrant = true) (h' : s.engineStuck = true) :
    whenGranted f s = .fault .engineStuck := by
  simp [whenGranted, h, h']

theorem whenGranted_stuck {f : State → Result} {s : State} (h : s.blk.engineGrant = false) :
    whenGranted f s = .fault .engineNotGranted := by
  simp [whenGranted, h]

/-! ## The chip bus -/

/-- A chip-bus read that answers: from scratch memory, or from the cartridge, and never from control space. -/
theorem chipBusRead_some {a : Addr} {s s' : State} {v : Byte} (h : chipBusRead a s = some (v, s')) :
    (∃ i, route a = .scratch i ∧ v = s.blk.scratchRead i ∧ s' = s) ∨
      (route a = .cartridge ∧ v = s.cartAnswer a ∧ s' = s.cartTaken a) := by
  unfold chipBusRead at h
  split at h
  · next i hr => cases h; exact .inl ⟨i, hr, rfl, rfl⟩
  · cases h
  · next hr => cases h; exact .inr ⟨hr, rfl, rfl⟩

theorem chipBusRead_none {a : Addr} {s : State} : chipBusRead a s = none ↔ route a = .control := by
  unfold chipBusRead; split <;> simp_all

/-- A chip-bus read changes no field of `S`. -/
theorem chipBusRead_blk {a : Addr} {s s' : State} {v : Byte} (h : chipBusRead a s = some (v, s')) : s'.blk = s.blk := by
  rcases chipBusRead_some h with ⟨_, _, _, rfl⟩ | ⟨_, _, rfl⟩ <;> simp

/-- A chip-bus write that is made: to scratch memory, or to the cartridge, and never to control space. -/
theorem chipBusWrite_some {a : Addr} {s s' : State} {v : Byte} (h : chipBusWrite a v s = some s') :
    (∃ i, route a = .scratch i ∧ s' = s.setBlk (s.blk.scratchWrite i v)) ∨
      (route a = .cartridge ∧ s' = s.emit (.cartWrite a v)) := by
  unfold chipBusWrite at h
  split at h
  · next i hr => cases h; exact .inl ⟨i, hr, rfl⟩
  · cases h
  · next hr => cases h; exact .inr ⟨hr, rfl⟩

theorem chipBusWrite_none {a : Addr} {s : State} {v : Byte} : chipBusWrite a v s = none ↔ route a = .control := by
  unfold chipBusWrite; split <;> simp_all

/-- DMA-BYTE's effect, when it answers a next state. -/
theorem moveDmaByte_next {s t : State} (h : moveDmaByte s = .next t) :
    ∃ v s1 s2, chipBusRead s.blk.dmaCur.src s = some (v, s1) ∧ chipBusWrite s.blk.dmaCur.tgt v s1 = some s2 ∧
      t = s2.setBlk { s2.blk with dmaCur := s2.blk.dmaCur.advance } := by
  unfold moveDmaByte at h
  split at h
  · cases h
  · next v s1 h1 =>
    split at h
    · cases h
    · next s2 h2 => cases h; exact ⟨v, s1, s2, h1, h2, rfl⟩

/-- CLOAD-BYTE's effect, when it answers a next state. -/
theorem moveLoadByte_next {s t : State} (h : moveLoadByte s = .next t) :
    ∃ v s1, chipBusRead s.blk.cload.addr s = some (v, s1) ∧ t = s1.setBlk (s1.blk.storeLoaded v) := by
  unfold moveLoadByte at h
  split at h
  · cases h
  · next v s1 h1 => cases h; exact ⟨v, s1, h1, rfl⟩

/-- ENG-FILL's effect, when it answers a next state. -/
theorem requestFill_next {p : BitVec 15} {s t : State} (h : requestFill p s = .next t) :
    ∃ b, s.blk.pageHeld p = false ∧ s.blk.fillBank = some b ∧ t = s.setBlk (s.blk.startLoad b p true) := by
  unfold requestFill at h
  split at h
  · cases h
  · next hp =>
    split at h
    · next b hb => cases h; exact ⟨b, by simpa using hp, hb, rfl⟩
    · split at h <;> cases h

/-- ENG-BUS's effect, when it answers a next state. -/
theorem engineBus_next {acc : BusAccess} {s t : State} (h : engineBus acc s = .next t) :
    (∃ a v s1, acc = .read a ∧ chipBusRead a s = some (v, s1) ∧ t = s1.emit (.engineData v)) ∨
      (∃ a d, acc = .write a d ∧ chipBusWrite a d s = some t) := by
  unfold engineBus at h
  cases acc with
  | read a =>
    simp only at h
    split at h
    · cases h
    · next v s1 h1 => cases h; exact .inl ⟨a, v, s1, rfl, h1, rfl⟩
  | write a d =>
    simp only at h
    split at h
    · cases h
    · next s1 h1 => cases h; exact .inr ⟨a, d, rfl, h1⟩

/-- A ROM-port read changes no field of `S`. -/
theorem romPortRead_blk (ctx : Ctx) (addr : Addr) (s : State) : (romPortRead ctx addr s).blk = s.blk := by
  cases ctx
  · simp only [romPortRead]
    split
    · simp [romPassThrough]
    · split <;> simp
  · simp [romPortRead, romPassThrough]

/-! ## Scratch memory -/

/-- A scratch write leaves every field but the memory alone. -/
theorem scratchWrite_eq (b : Block) (i : BitVec 12) (d : Byte) :
    ∃ m, b.scratchWrite i d = { b with scratch := m } ∧
      (Memory.wf 3072 b.scratch → Memory.wf 3072 m ∧ StoresByte 3072 b.scratch m i.toNat d) := by
  unfold Block.scratchWrite Config.scratchSize
  split
  · next hi =>
    refine ⟨_, rfl, fun h => ⟨Memory.wf_write d hi h, fun j => ?_⟩⟩
    rw [Memory.read_write h.1]
    simp [hi]
  · next hi =>
    refine ⟨b.scratch, rfl, fun h => ⟨h, fun j => ?_⟩⟩
    simp [hi]

theorem scratchRead_eq (b : Block) (i : BitVec 12) : b.scratchRead i = b.scratchAt i.toNat := rfl

/-! ## The step -/

/-- Everything a step that answers a next state can be: nothing scheduled, a system reset, one instruction that answers a next
state, or one that is stuck and passed over, which a locked miss leaves the Engine in. -/
theorem step_next {s t : State} (h : step s = .next t) :
    (s.inbox = [] ∧ t = s) ∨
      (∃ d rest, s.inbox = .systemReset d :: rest ∧ t = systemReset d { s with inbox := rest }) ∨
      (∃ x i rest, s.inbox = .txn x :: rest ∧ decode x = .ok i ∧
        (exec i { s with inbox := rest } = .next t ∨
          ∃ f, exec i { s with inbox := rest } = .fault f ∧
            t = State.emit { s with inbox := rest, engineStuck := s.engineStuck || f.sticks } (.stuck f))) := by
  unfold step takeEntry at h
  cases hi : s.inbox with
  | nil => simp only [hi] at h; cases h; exact .inl ⟨rfl, rfl⟩
  | cons e rest =>
    simp only [hi] at h
    cases e with
    | systemReset d => cases h; exact .inr (.inl ⟨d, rest, rfl, rfl⟩)
    | txn x =>
      simp only at h
      split at h
      · cases h
      · next i hd =>
        refine .inr (.inr ⟨x, i, rest, rfl, hd, ?_⟩)
        cases he : exec i { s with inbox := rest } with
        | next u => rw [he] at h; exact .inl h
        | fault f => rw [he] at h; cases h; exact .inr ⟨f, rfl, rfl⟩
        | refused r => rw [he] at h; cases h

/-- With one transaction at the head of the inbox that decodes, a step is `exec` of it, passed over if it is stuck. -/
theorem step_txn {s : State} {x : Txn} {i : Instr} {rest : List Entry} (hs : s.inbox = .txn x :: rest) (hd : decode x = .ok i) :
    step s = passStuck { s with inbox := rest } (exec i { s with inbox := rest }) := by
  simp [step, takeEntry, hs, hd]

/-! ## Runs -/

theorem execAll_nil (s : State) : execAll [] s = .next s := rfl

theorem execAll_cons {i : Instr} {is : List Instr} {s t : State} (h : exec i s = .next t) : execAll (i :: is) s = execAll is t := by
  simp [execAll, h]

end Sys2Proof.Machine
end

