-- ==== Sys2Proof/Laws/Codec.lean ====
section
/-! SUPPORT. The small laws of the encoding: bytes and words are inverse, and the fields of a window key. -/

namespace Sys2Proof

theorem join16_bytes16 (v : BitVec 16) : join16 (v.extractLsb' 0 8) (v.extractLsb' 8 8) = v := by
  apply BitVec.eq_of_toNat_eq
  simp only [join16, BitVec.toNat_append, BitVec.extractLsb'_toNat, Nat.shiftRight_eq_div_pow]
  rw [← Nat.shiftLeft_add_eq_or_of_lt (by omega), Nat.shiftLeft_eq]
  have := v.isLt
  omega

theorem join24_bytes24 (v : BitVec 24) : join24 (v.extractLsb' 0 8) (v.extractLsb' 8 8) (v.extractLsb' 16 8) = v := by
  apply BitVec.eq_of_toNat_eq
  simp only [join24, BitVec.toNat_append, BitVec.extractLsb'_toNat, Nat.shiftRight_eq_div_pow]
  rw [← Nat.shiftLeft_add_eq_or_of_lt (by omega), ← Nat.shiftLeft_add_eq_or_of_lt (by omega), Nat.shiftLeft_eq, Nat.shiftLeft_eq]
  have := v.isLt
  omega

theorem bytes16_join16 (b0 b1 : Byte) : bytes16 (join16 b0 b1) = [b0, b1] := by
  simp only [bytes16, List.cons.injEq, and_true]
  constructor <;> apply BitVec.eq_of_toNat_eq <;>
    simp only [join16, BitVec.extractLsb'_toNat, BitVec.toNat_append, Nat.shiftRight_eq_div_pow] <;>
    rw [← Nat.shiftLeft_add_eq_or_of_lt (by omega), Nat.shiftLeft_eq] <;> omega

theorem bytes24_join24 (b0 b1 b2 : Byte) : bytes24 (join24 b0 b1 b2) = [b0, b1, b2] := by
  simp only [bytes24, List.cons.injEq, and_true]
  refine ⟨?_, ?_, ?_⟩ <;> apply BitVec.eq_of_toNat_eq <;>
    simp only [join24, BitVec.extractLsb'_toNat, BitVec.toNat_append, Nat.shiftRight_eq_div_pow] <;>
    rw [← Nat.shiftLeft_add_eq_or_of_lt (by omega), ← Nat.shiftLeft_add_eq_or_of_lt (by omega), Nat.shiftLeft_eq, Nat.shiftLeft_eq] <;>
    omega

theorem windowKey_offset (dbg w : Bool) (o : Offset) : (windowKey dbg w o).extractLsb' 0 13 = o := by
  apply BitVec.eq_of_getLsbD_eq
  intro n hn
  simp only [windowKey, BitVec.getLsbD_extractLsb', BitVec.getLsbD_append, Nat.zero_add, hn, decide_true, Bool.true_and,
    if_true]

theorem windowKey_w (dbg w : Bool) (o : Offset) : (windowKey dbg w o).getLsbD 13 = w := by
  simp only [windowKey, BitVec.getLsbD_append, BitVec.getLsbD_ofBool]; simp

theorem windowKey_dbg (dbg w : Bool) (o : Offset) : (windowKey dbg w o).getLsbD 14 = dbg := by
  simp only [windowKey, BitVec.getLsbD_append, BitVec.getLsbD_ofBool]; simp

theorem windowKey_reserved (dbg w : Bool) (o : Offset) : (windowKey dbg w o).getLsbD 15 = false := by
  simp only [windowKey, BitVec.getLsbD_append, BitVec.getLsbD_ofBool]; simp

/-- A key with bit 15 clear is the window key of its fields. -/
theorem windowKey_of_fields {key : BitVec 16} (h : key.getLsbD 15 = false) :
    windowKey (key.getLsbD 14) (key.getLsbD 13) (key.extractLsb' 0 13) = key := by
  apply BitVec.eq_of_getLsbD_eq
  intro n hn
  simp only [windowKey, BitVec.getLsbD_append, BitVec.getLsbD_extractLsb', BitVec.getLsbD_ofBool, Nat.zero_add]
  by_cases h1 : n < 13
  · simp [h1]
  · obtain rfl | rfl | rfl : n = 13 ∨ n = 14 ∨ n = 15 := by omega
    · simp
    · simp
    · rw [h]; simp

/-- The decoder on the bytes of a window read at an access in the window. -/
theorem decode_encodeRead {a : Access} (h : a.wellFormed = true) (o : Offset) : decode (encodeRead a o) = .ok (decodeRead a o) := by
  simp only [decode, encodeRead, bytes16, List.cons_append, List.nil_append, join16_bytes16, decodeWindow, windowKey_offset,
    windowKey_w, windowKey_dbg, windowKey_reserved]
  simp [h]

/-- The decoder on the bytes of a window write at an access in the window. -/
theorem decode_encodeWrite {a : Access} (h : a.wellFormed = true) (o : Offset) (d : Byte) :
    decode (encodeWrite a o d) = .ok (decodeWrite a o d) := by
  simp only [decode, encodeWrite, bytes16, List.cons_append, List.nil_append, join16_bytes16, decodeWindow, windowKey_offset,
    windowKey_w, windowKey_dbg, windowKey_reserved]
  simp [h]

end Sys2Proof
end

