-- ==== Sys2Proof/Laws/Window.lean ====
section
/-! SUPPORT. Window transactions: byte slots bit by bit, which instruction the decoder reads at each offset, and that every window
instruction is one shared read or one shared write. -/

namespace Sys2Proof.Machine

/-! ## Byte slots -/

theorem slotIs_byteSlot {w : Nat} (f : BitVec w) (k : Nat) : SlotIs f k (byteSlot f k) := by
  intro n hn
  simp [byteSlot, hn]

theorem getLsbD_slotMask {w : Nat} (k : Nat) {n : Nat} (hn : n < w) :
    (slotMask w k).getLsbD n = (decide (8 * k ≤ n) && decide (n < 8 * k + 8)) := by
  simp only [slotMask, BitVec.getLsbD_ofNat, Nat.testBit_shiftLeft, hn, decide_true, Bool.true_and]
  by_cases h : 8 * k ≤ n
  · have h2 : (0xFF : Nat) = 2 ^ 8 - 1 := rfl
    simp only [h, decide_true, Bool.true_and, h2, Nat.testBit_two_pow_sub_one]
    congr 1
    simp
    omega
  · simp [h]

theorem slotMerged_mergeSlot {w : Nat} (f : BitVec w) (k : Nat) (d : Byte) : SlotMerged f (mergeSlot f k d) k d := by
  intro n hn
  simp only [mergeSlot, BitVec.getLsbD_or, BitVec.getLsbD_and, BitVec.getLsbD_not, getLsbD_slotMask k hn, hn,
    BitVec.getLsbD_shiftLeft, BitVec.getLsbD_setWidth, decide_true, Bool.true_and]
  by_cases h1 : 8 * k ≤ n
  · by_cases h2 : n < 8 * k + 8
    · have h3 : ¬ n < 8 * k := by omega
      have h4 : n - 8 * k < w := by omega
      simp [h1, h2, h3, h4]
    · simp [h1, h2]
  · simp [h1]

/-! ## The decoder at each offset -/

theorem toNat_offset {o : Nat} (h : o < 8192) : (BitVec.ofNat 13 o).toNat = o := by simp [Nat.mod_eq_of_lt h]

theorem offset_low {w base : Nat} (x : BitVec w) (hb : base % 2 ^ w = 0) (h : base + x.toNat < 2 ^ 13) :
    (BitVec.ofNat 13 (base + x.toNat)).extractLsb' 0 w = x := by
  apply BitVec.eq_of_toNat_eq
  simp only [BitVec.extractLsb'_toNat, BitVec.toNat_ofNat, Nat.shiftRight_zero]
  rw [Nat.mod_eq_of_lt h, Nat.add_mod, hb, Nat.zero_add, Nat.mod_mod, Nat.mod_eq_of_lt x.isLt]

theorem toNat_append {w n m : Nat} (x : BitVec w) (hn : n < 2 ^ m) : (BitVec.ofNat m n ++ x).toNat = n * 2 ^ w + x.toNat := by
  rw [BitVec.toNat_append, ← Nat.shiftLeft_add_eq_or_of_lt x.isLt, Nat.shiftLeft_eq]
  simp [Nat.mod_eq_of_lt hn]

theorem decodeRead_scratch0000 (a : Access) (x : BitVec 11) :
    decodeRead a (BitVec.ofNat 13 (0x0000 + x.toNat)) = .rdScratch0000 a x := by
  have := x.isLt
  simp only [decodeRead]
  rw [toNat_offset (by omega)]
  repeat (first | rw [if_neg (by omega)] | rw [if_pos (by omega)])
  rw [offset_low _ (by decide) (by omega)]

theorem decodeRead_scratch0800 (a : Access) (x : BitVec 10) :
    decodeRead a (BitVec.ofNat 13 (0x0800 + x.toNat)) = .rdScratch0800 a x := by
  have := x.isLt
  simp only [decodeRead]
  rw [toNat_offset (by omega)]
  repeat (first | rw [if_neg (by omega)] | rw [if_pos (by omega)])
  rw [offset_low _ (by decide) (by omega)]

theorem decodeRead_scratchOor (a : Access) (x : BitVec 10) :
    decodeRead a (BitVec.ofNat 13 (0x0C00 + x.toNat)) = .rdScratchOor a x := by
  have := x.isLt
  simp only [decodeRead]
  rw [toNat_offset (by omega)]
  repeat (first | rw [if_neg (by omega)] | rw [if_pos (by omega)])
  rw [offset_low _ (by decide) (by omega)]

theorem decodeRead_scratch1000 (a : Access) (x : BitVec 11) :
    decodeRead a (BitVec.ofNat 13 (0x1000 + x.toNat)) = .rdScratch1000 a x := by
  have := x.isLt
  simp only [decodeRead]
  rw [toNat_offset (by omega)]
  repeat (first | rw [if_neg (by omega)] | rw [if_pos (by omega)])
  rw [offset_low _ (by decide) (by omega)]

theorem decodeRead_scratch1800 (a : Access) (x : BitVec 10) :
    decodeRead a (BitVec.ofNat 13 (0x1800 + x.toNat)) = .rdScratch1800 a x := by
  have := x.isLt
  simp only [decodeRead]
  rw [toNat_offset (by omega)]
  repeat (first | rw [if_neg (by omega)] | rw [if_pos (by omega)])
  rw [offset_low _ (by decide) (by omega)]

theorem decodeRead_unmapped1C00 (a : Access) (x : BitVec 9) :
    decodeRead a (BitVec.ofNat 13 (0x1C00 + x.toNat)) = .rdUnmapped1C00 a x := by
  have := x.isLt
  simp only [decodeRead]
  rw [toNat_offset (by omega)]
  repeat (first | rw [if_neg (by omega)] | rw [if_pos (by omega)])
  rw [offset_low _ (by decide) (by omega)]

theorem decodeRead_unmapped1E00 (a : Access) (x : BitVec 8) :
    decodeRead a (BitVec.ofNat 13 (0x1E00 + x.toNat)) = .rdUnmapped1E00 a x := by
  have := x.isLt
  simp only [decodeRead]
  rw [toNat_offset (by omega)]
  repeat (first | rw [if_neg (by omega)] | rw [if_pos (by omega)])
  rw [offset_low _ (by decide) (by omega)]

theorem decodeRead_unmapped1F00 (a : Access) (x : BitVec 6) :
    decodeRead a (BitVec.ofNat 13 (0x1F00 + x.toNat)) = .rdUnmapped1F00 a x := by
  have := x.isLt
  simp only [decodeRead]
  rw [toNat_offset (by omega)]
  repeat (first | rw [if_neg (by omega)] | rw [if_pos (by omega)])
  rw [offset_low _ (by decide) (by omega)]

theorem decodeRead_vector (a : Access) (x : BitVec 5) :
    decodeRead a (BitVec.ofNat 13 (0x1F60 + x.toNat)) = .rdVector a x := by
  have := x.isLt
  simp only [decodeRead]
  rw [toNat_offset (by omega)]
  repeat (first | rw [if_neg (by omega)] | rw [if_pos (by omega)])
  rw [offset_low _ (by decide) (by omega)]

theorem decodeRead_gprA0 (a : Access) (x : BitVec 5) :
    decodeRead a (BitVec.ofNat 13 (0x1F80 + x.toNat)) = .rdGprA0 a x := by
  have := x.isLt
  simp only [decodeRead]
  rw [toNat_offset (by omega)]
  repeat (first | rw [if_neg (by omega)] | rw [if_pos (by omega)])
  rw [offset_low _ (by decide) (by omega)]

theorem decodeRead_gprA1 (a : Access) (x : BitVec 4) :
    decodeRead a (BitVec.ofNat 13 (0x1FA0 + x.toNat)) = .rdGprA1 a x := by
  have := x.isLt
  simp only [decodeRead]
  rw [toNat_offset (by omega)]
  repeat (first | rw [if_neg (by omega)] | rw [if_pos (by omega)])
  rw [offset_low _ (by decide) (by omega)]

theorem decodeRead_unmapped1FB0 (a : Access) (x : BitVec 4) :
    decodeRead a (BitVec.ofNat 13 (0x1FB0 + x.toNat)) = .rdUnmapped1FB0 a x := by
  have := x.isLt
  simp only [decodeRead]
  rw [toNat_offset (by omega)]
  repeat (first | rw [if_neg (by omega)] | rw [if_pos (by omega)])
  rw [offset_low _ (by decide) (by omega)]

theorem decodeRead_gprB0 (a : Access) (x : BitVec 5) :
    decodeRead a (BitVec.ofNat 13 (0x1FC0 + x.toNat)) = .rdGprB0 a x := by
  have := x.isLt
  simp only [decodeRead]
  rw [toNat_offset (by omega)]
  repeat (first | rw [if_neg (by omega)] | rw [if_pos (by omega)])
  rw [offset_low _ (by decide) (by omega)]

theorem decodeRead_gprB1 (a : Access) (x : BitVec 4) :
    decodeRead a (BitVec.ofNat 13 (0x1FE0 + x.toNat)) = .rdGprB1 a x := by
  have := x.isLt
  simp only [decodeRead]
  rw [toNat_offset (by omega)]
  repeat (first | rw [if_neg (by omega)] | rw [if_pos (by omega)])
  rw [offset_low _ (by decide) (by omega)]

theorem decodeRead_unmapped1FF0 (a : Access) (x : BitVec 4) :
    decodeRead a (BitVec.ofNat 13 (0x1FF0 + x.toNat)) = .rdUnmapped1FF0 a x := by
  have := x.isLt
  simp only [decodeRead]
  rw [toNat_offset (by omega)]
  repeat rw [if_neg (by omega)]
  rw [offset_low _ (by decide) (by omega)]

theorem decodeWrite_scratch0000 (a : Access) (x : BitVec 11) (d : Byte) :
    decodeWrite a (BitVec.ofNat 13 (0x0000 + x.toNat)) d = .wrScratch0000 a x d := by
  have := x.isLt
  simp only [decodeWrite]
  rw [toNat_offset (by omega)]
  repeat (first | rw [if_neg (by omega)] | rw [if_pos (by omega)])
  rw [offset_low _ (by decide) (by omega)]

theorem decodeWrite_scratch0800 (a : Access) (x : BitVec 10) (d : Byte) :
    decodeWrite a (BitVec.ofNat 13 (0x0800 + x.toNat)) d = .wrScratch0800 a x d := by
  have := x.isLt
  simp only [decodeWrite]
  rw [toNat_offset (by omega)]
  repeat (first | rw [if_neg (by omega)] | rw [if_pos (by omega)])
  rw [offset_low _ (by decide) (by omega)]

theorem decodeWrite_scratchOor (a : Access) (x : BitVec 10) (d : Byte) :
    decodeWrite a (BitVec.ofNat 13 (0x0C00 + x.toNat)) d = .wrScratchOor a x d := by
  have := x.isLt
  simp only [decodeWrite]
  rw [toNat_offset (by omega)]
  repeat (first | rw [if_neg (by omega)] | rw [if_pos (by omega)])
  rw [offset_low _ (by decide) (by omega)]

theorem decodeWrite_scratch1000 (a : Access) (x : BitVec 11) (d : Byte) :
    decodeWrite a (BitVec.ofNat 13 (0x1000 + x.toNat)) d = .wrScratch1000 a x d := by
  have := x.isLt
  simp only [decodeWrite]
  rw [toNat_offset (by omega)]
  repeat (first | rw [if_neg (by omega)] | rw [if_pos (by omega)])
  rw [offset_low _ (by decide) (by omega)]

theorem decodeWrite_scratch1800 (a : Access) (x : BitVec 10) (d : Byte) :
    decodeWrite a (BitVec.ofNat 13 (0x1800 + x.toNat)) d = .wrScratch1800 a x d := by
  have := x.isLt
  simp only [decodeWrite]
  rw [toNat_offset (by omega)]
  repeat (first | rw [if_neg (by omega)] | rw [if_pos (by omega)])
  rw [offset_low _ (by decide) (by omega)]

theorem decodeWrite_unmapped1C00 (a : Access) (x : BitVec 9) (d : Byte) :
    decodeWrite a (BitVec.ofNat 13 (0x1C00 + x.toNat)) d = .wrUnmapped1C00 a x d := by
  have := x.isLt
  simp only [decodeWrite]
  rw [toNat_offset (by omega)]
  repeat (first | rw [if_neg (by omega)] | rw [if_pos (by omega)])
  rw [offset_low _ (by decide) (by omega)]

theorem decodeWrite_unmapped1E00 (a : Access) (x : BitVec 8) (d : Byte) :
    decodeWrite a (BitVec.ofNat 13 (0x1E00 + x.toNat)) d = .wrUnmapped1E00 a x d := by
  have := x.isLt
  simp only [decodeWrite]
  rw [toNat_offset (by omega)]
  repeat (first | rw [if_neg (by omega)] | rw [if_pos (by omega)])
  rw [offset_low _ (by decide) (by omega)]

theorem decodeWrite_unmapped1F00 (a : Access) (x : BitVec 6) (d : Byte) :
    decodeWrite a (BitVec.ofNat 13 (0x1F00 + x.toNat)) d = .wrUnmapped1F00 a x d := by
  have := x.isLt
  simp only [decodeWrite]
  rw [toNat_offset (by omega)]
  repeat (first | rw [if_neg (by omega)] | rw [if_pos (by omega)])
  rw [offset_low _ (by decide) (by omega)]

theorem decodeWrite_vector (a : Access) (x : BitVec 5) (d : Byte) :
    decodeWrite a (BitVec.ofNat 13 (0x1F60 + x.toNat)) d = .wrVector a x d := by
  have := x.isLt
  simp only [decodeWrite]
  rw [toNat_offset (by omega)]
  repeat (first | rw [if_neg (by omega)] | rw [if_pos (by omega)])
  rw [offset_low _ (by decide) (by omega)]

theorem decodeWrite_gprA0 (a : Access) (x : BitVec 5) (d : Byte) :
    decodeWrite a (BitVec.ofNat 13 (0x1F80 + x.toNat)) d = .wrGprA0 a x d := by
  have := x.isLt
  simp only [decodeWrite]
  rw [toNat_offset (by omega)]
  repeat (first | rw [if_neg (by omega)] | rw [if_pos (by omega)])
  rw [offset_low _ (by decide) (by omega)]

theorem decodeWrite_gprA1 (a : Access) (x : BitVec 4) (d : Byte) :
    decodeWrite a (BitVec.ofNat 13 (0x1FA0 + x.toNat)) d = .wrGprA1 a x d := by
  have := x.isLt
  simp only [decodeWrite]
  rw [toNat_offset (by omega)]
  repeat (first | rw [if_neg (by omega)] | rw [if_pos (by omega)])
  rw [offset_low _ (by decide) (by omega)]

theorem decodeWrite_unmapped1FB0 (a : Access) (x : BitVec 4) (d : Byte) :
    decodeWrite a (BitVec.ofNat 13 (0x1FB0 + x.toNat)) d = .wrUnmapped1FB0 a x d := by
  have := x.isLt
  simp only [decodeWrite]
  rw [toNat_offset (by omega)]
  repeat (first | rw [if_neg (by omega)] | rw [if_pos (by omega)])
  rw [offset_low _ (by decide) (by omega)]

theorem decodeWrite_gprB0 (a : Access) (x : BitVec 5) (d : Byte) :
    decodeWrite a (BitVec.ofNat 13 (0x1FC0 + x.toNat)) d = .wrGprB0 a x d := by
  have := x.isLt
  simp only [decodeWrite]
  rw [toNat_offset (by omega)]
  repeat (first | rw [if_neg (by omega)] | rw [if_pos (by omega)])
  rw [offset_low _ (by decide) (by omega)]

theorem decodeWrite_gprB1 (a : Access) (x : BitVec 4) (d : Byte) :
    decodeWrite a (BitVec.ofNat 13 (0x1FE0 + x.toNat)) d = .wrGprB1 a x d := by
  have := x.isLt
  simp only [decodeWrite]
  rw [toNat_offset (by omega)]
  repeat (first | rw [if_neg (by omega)] | rw [if_pos (by omega)])
  rw [offset_low _ (by decide) (by omega)]

theorem decodeWrite_unmapped1FF0 (a : Access) (x : BitVec 4) (d : Byte) :
    decodeWrite a (BitVec.ofNat 13 (0x1FF0 + x.toNat)) d = .wrUnmapped1FF0 a x d := by
  have := x.isLt
  simp only [decodeWrite]
  rw [toNat_offset (by omega)]
  repeat rw [if_neg (by omega)]
  rw [offset_low _ (by decide) (by omega)]

/-- A read at an offset, from what the decoder and `exec` do there. -/
theorem reads_of {o : Nat} {i : Instr} {a : Access} {s : State} {f : Block → Byte} (h : decodeRead a (BitVec.ofNat 13 o) = i)
    (he : exec i s = windowRead a f s) : Reads o i a s (f s.blk) :=
  ⟨fun hw => by rw [← h]; exact decode_encodeRead hw _, by rw [he, windowRead_eq]⟩

/-- A write at an offset, from what the decoder and `exec` do there. -/
theorem writes_of {o : Nat} {i : Instr} {a : Access} {d : Byte} {s : State} {f : Block → Block}
    (h : decodeWrite a (BitVec.ofNat 13 o) d = i) (he : exec i s = windowWrite a f s) : Writes o i a d s (f s.blk) :=
  ⟨fun hw => by rw [← h]; exact decode_encodeWrite hw _ _, by rw [he, windowWrite_eq]⟩

/-! ## Every window instruction is one shared read or write -/

/-- What a window instruction can do: read a value of `S`, replace `S`, or be the lock write (`execWrCachelock_eq`). -/
theorem exec_window {i : Instr} {a : Access} (h : i.access? = some a) :
    (∃ f, ∀ s, exec i s = windowRead a f s) ∨ (∃ f, ∀ s, exec i s = windowWrite a f s) ∨ (∃ d, i = .wrCachelock a d) := by
  cases i with
  | rdScratch0000 a' k => cases h; exact .inl ⟨_, fun s => by simp only [exec, execRdScratch0000]; rfl⟩
  | rdScratch0800 a' k => cases h; exact .inl ⟨_, fun s => by simp only [exec, execRdScratch0800]; rfl⟩
  | rdScratchOor a' k => cases h; exact .inl ⟨_, fun s => by simp only [exec, execRdScratchOor]; rfl⟩
  | rdScratch1000 a' k => cases h; exact .inl ⟨_, fun s => by simp only [exec, execRdScratch1000]; rfl⟩
  | rdScratch1800 a' k => cases h; exact .inl ⟨_, fun s => by simp only [exec, execRdScratch1800]; rfl⟩
  | rdUnmapped1C00 a' k => cases h; exact .inl ⟨fun _ => 0, fun s => rfl⟩
  | rdUnmapped1E00 a' k => cases h; exact .inl ⟨fun _ => 0, fun s => rfl⟩
  | rdUnmapped1F00 a' k => cases h; exact .inl ⟨fun _ => 0, fun s => rfl⟩
  | rdDmasrcL a' => cases h; exact .inl ⟨_, fun s => by simp only [exec, execRdDmasrcL]; rfl⟩
  | rdDmasrcM a' => cases h; exact .inl ⟨_, fun s => by simp only [exec, execRdDmasrcM]; rfl⟩
  | rdDmasrcH a' => cases h; exact .inl ⟨_, fun s => by simp only [exec, execRdDmasrcH]; rfl⟩
  | rdDmalenL a' => cases h; exact .inl ⟨_, fun s => by simp only [exec, execRdDmalenL]; rfl⟩
  | rdDmalenH a' => cases h; exact .inl ⟨_, fun s => by simp only [exec, execRdDmalenH]; rfl⟩
  | rdDmatgtL a' => cases h; exact .inl ⟨_, fun s => by simp only [exec, execRdDmatgtL]; rfl⟩
  | rdDmatgtM a' => cases h; exact .inl ⟨_, fun s => by simp only [exec, execRdDmatgtM]; rfl⟩
  | rdDmatgtH a' => cases h; exact .inl ⟨_, fun s => by simp only [exec, execRdDmatgtH]; rfl⟩
  | rdCpreload a' => cases h; exact .inl ⟨_, fun s => by simp only [exec, execRdCpreload]; rfl⟩
  | rdProgofsL a' => cases h; exact .inl ⟨_, fun s => by simp only [exec, execRdProgofsL]; rfl⟩
  | rdProgofsM a' => cases h; exact .inl ⟨_, fun s => by simp only [exec, execRdProgofsM]; rfl⟩
  | rdProgofsH a' => cases h; exact .inl ⟨_, fun s => by simp only [exec, execRdProgofsH]; rfl⟩
  | rdCachelock a' => cases h; exact .inl ⟨_, fun s => by simp only [exec, execRdCachelock]; rfl⟩
  | rdPageL a' => cases h; exact .inl ⟨_, fun s => by simp only [exec, execRdPageL]; rfl⟩
  | rdPageH a' => cases h; exact .inl ⟨_, fun s => by simp only [exec, execRdPageH]; rfl⟩
  | rdPc a' => cases h; exact .inl ⟨_, fun s => by simp only [exec, execRdPc]; rfl⟩
  | rdSpeed a' => cases h; exact .inl ⟨_, fun s => by simp only [exec, execRdSpeed]; rfl⟩
  | rdR1F51 a' => cases h; exact .inl ⟨_, fun s => by simp only [exec, execRdR1F51]; rfl⟩
  | rdR1F52 a' => cases h; exact .inl ⟨_, fun s => by simp only [exec, execRdR1F52]; rfl⟩
  | rdStatus1F53 a' => cases h; exact .inl ⟨_, fun s => by simp only [exec, execRdStatus1F53]; rfl⟩
  | rdStatus1F54 a' => cases h; exact .inl ⟨_, fun s => by simp only [exec, execRdStatus1F54]; rfl⟩
  | rdStatus1F55 a' => cases h; exact .inl ⟨_, fun s => by simp only [exec, execRdStatus1F55]; rfl⟩
  | rdStatus1F56 a' => cases h; exact .inl ⟨_, fun s => by simp only [exec, execRdStatus1F56]; rfl⟩
  | rdStatus1F57 a' => cases h; exact .inl ⟨_, fun s => by simp only [exec, execRdStatus1F57]; rfl⟩
  | rdStatus1F58 a' => cases h; exact .inl ⟨_, fun s => by simp only [exec, execRdStatus1F58]; rfl⟩
  | rdStatus1F59 a' => cases h; exact .inl ⟨_, fun s => by simp only [exec, execRdStatus1F59]; rfl⟩
  | rdStatus1F5A a' => cases h; exact .inl ⟨_, fun s => by simp only [exec, execRdStatus1F5A]; rfl⟩
  | rdStatus1F5B a' => cases h; exact .inl ⟨_, fun s => by simp only [exec, execRdStatus1F5B]; rfl⟩
  | rdStatus1F5C a' => cases h; exact .inl ⟨_, fun s => by simp only [exec, execRdStatus1F5C]; rfl⟩
  | rdStatus1F5D a' => cases h; exact .inl ⟨_, fun s => by simp only [exec, execRdStatus1F5D]; rfl⟩
  | rdStatus1F5E a' => cases h; exact .inl ⟨_, fun s => by simp only [exec, execRdStatus1F5E]; rfl⟩
  | rdStatus1F5F a' => cases h; exact .inl ⟨_, fun s => by simp only [exec, execRdStatus1F5F]; rfl⟩
  | rdVector a' k => cases h; exact .inl ⟨_, fun s => by simp only [exec, execRdVector]; rfl⟩
  | rdGprA0 a' k => cases h; exact .inl ⟨_, fun s => by simp only [exec, execRdGprA0]; rfl⟩
  | rdGprA1 a' k => cases h; exact .inl ⟨_, fun s => by simp only [exec, execRdGprA1]; rfl⟩
  | rdUnmapped1FB0 a' k => cases h; exact .inl ⟨fun _ => 0, fun s => rfl⟩
  | rdGprB0 a' k => cases h; exact .inl ⟨_, fun s => by simp only [exec, execRdGprB0]; rfl⟩
  | rdGprB1 a' k => cases h; exact .inl ⟨_, fun s => by simp only [exec, execRdGprB1]; rfl⟩
  | rdUnmapped1FF0 a' k => cases h; exact .inl ⟨fun _ => 0, fun s => rfl⟩
  | wrScratch0000 a' k d => cases h; exact .inr (.inl ⟨_, fun s => by simp only [exec, execWrScratch0000]; rfl⟩)
  | wrScratch0800 a' k d => cases h; exact .inr (.inl ⟨_, fun s => by simp only [exec, execWrScratch0800]; rfl⟩)
  | wrScratchOor a' k d => cases h; exact .inr (.inl ⟨_, fun s => by simp only [exec, execWrScratchOor]; rfl⟩)
  | wrScratch1000 a' k d => cases h; exact .inr (.inl ⟨_, fun s => by simp only [exec, execWrScratch1000]; rfl⟩)
  | wrScratch1800 a' k d => cases h; exact .inr (.inl ⟨_, fun s => by simp only [exec, execWrScratch1800]; rfl⟩)
  | wrUnmapped1C00 a' k d => cases h; exact .inr (.inl ⟨fun b => b, fun s => rfl⟩)
  | wrUnmapped1E00 a' k d => cases h; exact .inr (.inl ⟨fun b => b, fun s => rfl⟩)
  | wrUnmapped1F00 a' k d => cases h; exact .inr (.inl ⟨fun b => b, fun s => rfl⟩)
  | wrDmasrcL a' d => cases h; exact .inr (.inl ⟨_, fun s => by simp only [exec, execWrDmasrcL]; rfl⟩)
  | wrDmasrcM a' d => cases h; exact .inr (.inl ⟨_, fun s => by simp only [exec, execWrDmasrcM]; rfl⟩)
  | wrDmasrcH a' d => cases h; exact .inr (.inl ⟨_, fun s => by simp only [exec, execWrDmasrcH]; rfl⟩)
  | wrDmalenL a' d => cases h; exact .inr (.inl ⟨_, fun s => by simp only [exec, execWrDmalenL]; rfl⟩)
  | wrDmalenH a' d => cases h; exact .inr (.inl ⟨_, fun s => by simp only [exec, execWrDmalenH]; rfl⟩)
  | wrDmatgtL a' d => cases h; exact .inr (.inl ⟨_, fun s => by simp only [exec, execWrDmatgtL]; rfl⟩)
  | wrDmatgtM a' d => cases h; exact .inr (.inl ⟨_, fun s => by simp only [exec, execWrDmatgtM]; rfl⟩)
  | wrDmatgtH a' d => cases h; exact .inr (.inl ⟨_, fun s => by simp only [exec, execWrDmatgtH]; rfl⟩)
  | wrCpreload a' d => cases h; exact .inr (.inl ⟨_, fun s => by simp only [exec, execWrCpreload]; rfl⟩)
  | wrProgofsL a' d => cases h; exact .inr (.inl ⟨_, fun s => by simp only [exec, execWrProgofsL]; rfl⟩)
  | wrProgofsM a' d => cases h; exact .inr (.inl ⟨_, fun s => by simp only [exec, execWrProgofsM]; rfl⟩)
  | wrProgofsH a' d => cases h; exact .inr (.inl ⟨_, fun s => by simp only [exec, execWrProgofsH]; rfl⟩)
  | wrCachelock a' d => cases h; exact .inr (.inr ⟨d, rfl⟩)
  | wrPageL a' d => cases h; exact .inr (.inl ⟨_, fun s => by simp only [exec, execWrPageL]; rfl⟩)
  | wrPageH a' d => cases h; exact .inr (.inl ⟨_, fun s => by simp only [exec, execWrPageH]; rfl⟩)
  | wrPc a' d => cases h; exact .inr (.inl ⟨_, fun s => by simp only [exec, execWrPc]; rfl⟩)
  | wrSpeed a' d => cases h; exact .inr (.inl ⟨_, fun s => by simp only [exec, execWrSpeed]; rfl⟩)
  | wrR1F51 a' d => cases h; exact .inr (.inl ⟨_, fun s => by simp only [exec, execWrR1F51]; rfl⟩)
  | wrR1F52 a' d => cases h; exact .inr (.inl ⟨_, fun s => by simp only [exec, execWrR1F52]; rfl⟩)
  | wrHalt a' d => cases h; exact .inr (.inl ⟨_, fun s => by simp only [exec, execWrHalt]; rfl⟩)
  | wrNop1F54 a' d => cases h; exact .inr (.inl ⟨fun b => b, fun s => rfl⟩)
  | wrSuspend0 a' d => cases h; exact .inr (.inl ⟨_, fun s => by simp only [exec, execWrSuspend0]; rfl⟩)
  | wrSuspend1 a' d => cases h; exact .inr (.inl ⟨_, fun s => by simp only [exec, execWrSuspend1]; rfl⟩)
  | wrSuspend2 a' d => cases h; exact .inr (.inl ⟨_, fun s => by simp only [exec, execWrSuspend2]; rfl⟩)
  | wrSuspend3 a' d => cases h; exact .inr (.inl ⟨_, fun s => by simp only [exec, execWrSuspend3]; rfl⟩)
  | wrSuspend4 a' d => cases h; exact .inr (.inl ⟨_, fun s => by simp only [exec, execWrSuspend4]; rfl⟩)
  | wrSuspend5 a' d => cases h; exact .inr (.inl ⟨_, fun s => by simp only [exec, execWrSuspend5]; rfl⟩)
  | wrSuspend6 a' d => cases h; exact .inr (.inl ⟨_, fun s => by simp only [exec, execWrSuspend6]; rfl⟩)
  | wrSuspend7 a' d => cases h; exact .inr (.inl ⟨_, fun s => by simp only [exec, execWrSuspend7]; rfl⟩)
  | wrUnsuspend a' d => cases h; exact .inr (.inl ⟨_, fun s => by simp only [exec, execWrUnsuspend]; rfl⟩)
  | wrNop1F5E a' d => cases h; exact .inr (.inl ⟨fun b => b, fun s => rfl⟩)
  | wrNop1F5F a' d => cases h; exact .inr (.inl ⟨fun b => b, fun s => rfl⟩)
  | wrVector a' k d => cases h; exact .inr (.inl ⟨_, fun s => by simp only [exec, execWrVector]; rfl⟩)
  | wrGprA0 a' k d => cases h; exact .inr (.inl ⟨_, fun s => by simp only [exec, execWrGprA0]; rfl⟩)
  | wrGprA1 a' k d => cases h; exact .inr (.inl ⟨_, fun s => by simp only [exec, execWrGprA1]; rfl⟩)
  | wrUnmapped1FB0 a' k d => cases h; exact .inr (.inl ⟨fun b => b, fun s => rfl⟩)
  | wrGprB0 a' k d => cases h; exact .inr (.inl ⟨_, fun s => by simp only [exec, execWrGprB0]; rfl⟩)
  | wrGprB1 a' k d => cases h; exact .inr (.inl ⟨_, fun s => by simp only [exec, execWrGprB1]; rfl⟩)
  | wrUnmapped1FF0 a' k d => cases h; exact .inr (.inl ⟨fun b => b, fun s => rfl⟩)
  | romRead _ _ | speedQuery _ | dmaStart | dmaByte | dmaDone | cloadByte | cloadDone | suspExpire | engHalt | engGpr _ _ | engFill _
  | engPage _ | engBus _ => cases h

end Sys2Proof.Machine
end

