-- ==== Sys2Proof/Laws/Bus.lean ====
section
/-! SUPPORT. The chip bus said with numbers: where an address leads, what a read or write that is made does, and the enabling
conditions as propositions. -/

namespace Sys2Proof.Machine

/-! ## Addresses -/

theorem inChipWindow_iff (a : Addr) : Config.inChipWindow a = true ↔ InWindow a := by
  have h1 : (a.extractLsb' 16 8 &&& 0x40#8).toNat = (a.toNat / 0x400000 % 2) * 0x40 := by
    rw [BitVec.toNat_and, BitVec.extractLsb'_toNat, Nat.shiftRight_eq_div_pow]
    have h := Nat.and_two_pow (a.toNat / 2 ^ 16 % 2 ^ 8) 6
    have e : a.toNat / 2 ^ 16 % 2 ^ 8 / 2 ^ 6 % 2 = a.toNat / 0x400000 % 2 := by omega
    rw [show (0x40#8).toNat = 2 ^ 6 by rfl, h, Nat.testBit_eq_decide_div_mod_eq, e]
    rcases Nat.mod_two_eq_zero_or_one (a.toNat / 0x400000) with h | h <;> rw [h] <;> rfl
  have h2 : (a.extractLsb' 13 3).toNat = a.toNat / 0x2000 % 8 := by
    rw [BitVec.extractLsb'_toNat, Nat.shiftRight_eq_div_pow]
  simp only [Config.inChipWindow, Bool.and_eq_true, beq_iff_eq, InWindow, ← BitVec.toNat_inj, h1, h2]
  simp

theorem isControl_iff (o : Offset) : isControl o = true ↔ 0x1C00 ≤ o.toNat := by
  have h : (o.extractLsb' 10 3).toNat = o.toNat / 1024 := by
    rw [BitVec.extractLsb'_toNat, Nat.shiftRight_eq_div_pow]
    have := o.isLt
    omega
  simp only [isControl, beq_iff_eq, ← BitVec.toNat_inj, h]
  have := o.isLt
  simp
  omega

theorem low13_toNat (a : Addr) : (a.extractLsb' 0 13).toNat = a.toNat % 0x2000 := by simp
theorem low12_toNat (a : Addr) : (a.extractLsb' 0 12).toNat = a.toNat % 0x1000 := by simp

/-- Where an address leads. -/
theorem route_cases (a : Addr) :
    (InControlSpace a ∧ route a = .control) ∨ (OnCartridge a ∧ route a = .cartridge) ∨
      (ReachesScratch a (a.toNat % 0x1000) ∧ route a = .scratch (a.extractLsb' 0 12)) := by
  unfold route
  by_cases h : Config.inChipWindow a = true
  · have hw := (inChipWindow_iff a).mp h
    by_cases hc : isControl (a.extractLsb' 0 13) = true
    · have hn := (isControl_iff _).mp hc
      rw [low13_toNat] at hn
      exact .inl ⟨⟨hw, hn⟩, by simp [h, hc]⟩
    · have hn := (not_congr (isControl_iff _)).mp hc
      rw [low13_toNat] at hn
      exact .inr (.inr ⟨⟨hw, by omega, rfl⟩, by simp [h, hc]⟩)
  · exact .inr (.inl ⟨fun hw => h ((inChipWindow_iff a).mpr hw), by simp [h]⟩)

theorem route_control {a : Addr} (h : InControlSpace a) : route a = .control := by
  rcases route_cases a with ⟨_, h'⟩ | ⟨h', _⟩ | ⟨h', _⟩
  · exact h'
  · exact absurd h.1 h'
  · exact absurd h.2 (by have := h'.2.1; omega)

/-! ## Reads and writes that are made -/

theorem cartReads_cartTaken (s : State) (a : Addr) : CartReads s (s.cartTaken a) a (s.cartAnswer a) := by
  refine ⟨by simp, by simp, by simp, ?_⟩
  unfold State.cartTaken State.cartAnswer
  cases h : s.cartIn <;> simp

theorem chipBusRead_ok {a : Addr} {s : State} (h : ¬ InControlSpace a) :
    ∃ v s', chipBusRead a s = some (v, s') ∧ ChipReads s s' a v := by
  rcases route_cases a with ⟨h', _⟩ | ⟨h', hr⟩ | ⟨h', hr⟩
  · exact absurd h' h
  · exact ⟨_, _, by simp only [chipBusRead, hr], .inr ⟨h', cartReads_cartTaken s a⟩⟩
  · refine ⟨s.blk.scratchRead (a.extractLsb' 0 12), s, by simp only [chipBusRead, hr], .inl ⟨_, h', ?_, rfl⟩⟩
    rw [scratchRead_eq, low12_toNat]

theorem chipBusWrite_ok {a : Addr} {v : Byte} {s : State} (hwf : Memory.wf 3072 s.blk.scratch) (h : ¬ InControlSpace a) :
    ∃ s', chipBusWrite a v s = some s' ∧ ChipWrites s s' a v := by
  rcases route_cases a with ⟨h', _⟩ | ⟨h', hr⟩ | ⟨h', hr⟩
  · exact absurd h' h
  · exact ⟨_, by simp only [chipBusWrite, hr], .inr ⟨h', rfl⟩⟩
  · obtain ⟨m, hm, hs⟩ := scratchWrite_eq s.blk (a.extractLsb' 0 12) v
    refine ⟨s.setBlk { s.blk with scratch := m }, by simp only [chipBusWrite, hr, hm], .inl ⟨_, m, h', ?_, rfl⟩⟩
    have := (hs hwf).2
    rw [low12_toNat] at this
    exact this

/-- A chip-bus write leaves every field of `S` but the scratch memory alone. -/
theorem chipBusWrite_blk {a : Addr} {v : Byte} {s s' : State} (h : chipBusWrite a v s = some s') :
    s'.blk = { s.blk with scratch := s'.blk.scratch } := by
  rcases chipBusWrite_some h with ⟨i, _, rfl⟩ | ⟨_, rfl⟩
  · obtain ⟨m, hm, _⟩ := scratchWrite_eq s.blk i v
    simp [hm]
  · rfl

/-! ## Enabling conditions -/

theorem count_ne_zero (b : Block) : (b.cload.count != 0) = true ↔ b.cload.count.toNat ≠ 0 := by
  simp [← BitVec.toNat_inj]

theorem dmaStartEnabled_iff (b : Block) : b.dmaStartEnabled = true ↔ b.DmaMayStart := by
  simp only [Block.dmaStartEnabled, Block.busOwner, Block.DmaMayStart]
  have := count_ne_zero b
  by_cases hc : b.cload.count.toNat = 0 <;>
    cases b.dmaActive <;> cases b.dmaPending <;> cases b.halt <;> cases b.cacheLoading <;> simp_all

theorem dmaByteEnabled_iff (b : Block) : b.dmaByteEnabled = true ↔ b.dmaActive = true ∧ b.dmaCur.remaining.toNat ≠ 0 := by
  simp [Block.dmaByteEnabled, ← BitVec.toNat_inj]

theorem dmaDoneEnabled_iff (b : Block) : b.dmaDoneEnabled = true ↔ b.dmaActive = true ∧ b.dmaCur.remaining.toNat = 0 := by
  simp [Block.dmaDoneEnabled, ← BitVec.toNat_inj]

theorem cloadByteEnabled_iff (b : Block) : b.cloadByteEnabled = true ↔ b.LoadMayContinue := by
  simp only [Block.cloadByteEnabled, Block.busOwner, Block.LoadMayContinue, Config.cachePageBytes]
  have := count_ne_zero b
  by_cases hc : b.cload.count.toNat = 0 <;>
    cases b.dmaActive <;> cases b.dmaPending <;> cases b.halt <;> cases b.cacheLoading <;> simp_all <;>
    exact decide_eq_true_iff

theorem cloadDoneEnabled_iff (b : Block) :
    b.cloadDoneEnabled = true ↔ b.cacheLoading = true ∧ b.cload.count.toNat = 512 ∧ b.dmaActive = false := by
  simp only [Block.cloadDoneEnabled, Block.busOwner, Config.cachePageBytes]
  have := count_ne_zero b
  by_cases hc : b.cload.count.toNat = 512 <;>
    cases b.dmaActive <;> cases b.dmaPending <;> cases b.halt <;> cases b.cacheLoading <;> simp_all

theorem suspExpireEnabled_iff (b : Block) :
    b.suspExpireEnabled = true ↔ b.suspend = true ∧ b.suspendCycles.toNat ≠ 0 := by
  simp [Block.suspExpireEnabled, Config.suspendZero, ← BitVec.toNat_inj]

theorem pageHeld_eq_false_iff (b : Block) (p : BitVec 15) : b.pageHeld p = false ↔ b.Misses p := by
  simp [Block.pageHeld, BankState.holds, Block.Misses]

theorem romPassCond_iff (b : Block) : b.romPassCond = true ↔ b.LetsThrough := by
  simp only [Block.romPassCond, Block.idle, Block.busy, Block.running, Block.LetsThrough]
  cases b.halt <;> cases b.dmaPending <;> cases b.dmaActive <;> cases b.cacheLoading <;> cases b.suspend <;> simp

/-! ## Address arithmetic -/

theorem cacheSourceAddr_toNat (base : BitVec 24) (p : BitVec 15) :
    (cacheSourceAddr base p).toNat = (base.toNat + p.toNat * 512) % 2 ^ 24 := by
  have := p.isLt
  simp only [cacheSourceAddr, Config.cachePageBytes, BitVec.toNat_add, BitVec.toNat_mul, BitVec.toNat_setWidth, BitVec.toNat_ofNat]
  omega

theorem advance_toNat (c : DmaCur) (h : c.remaining.toNat ≠ 0) :
    c.advance.src.toNat = (c.src.toNat + 1) % 2 ^ 24 ∧ c.advance.tgt.toNat = (c.tgt.toNat + 1) % 2 ^ 24 ∧
      c.advance.remaining.toNat + 1 = c.remaining.toNat := by
  have := c.remaining.isLt
  have e : (1 : BitVec 17).toNat = 1 := rfl
  refine ⟨by simp [DmaCur.advance], by simp [DmaCur.advance], ?_⟩
  simp only [DmaCur.advance, BitVec.toNat_sub, e]
  omega

/-! ## Runs -/

theorem execAll_append {l l' : List Instr} {s t : State} (h : execAll l s = .next t) : execAll (l ++ l') s = execAll l' t := by
  induction l generalizing s with
  | nil => cases h; rfl
  | cons i is ih =>
    simp only [List.cons_append, execAll] at h ⊢
    split at h
    · exact ih h
    · cases h
    · cases h

end Sys2Proof.Machine
end

