-- ==== Sys2Proof/Laws/Engine.lean ====
section
/-! SUPPORT. The stuck Engine of spec/43_dma_cache.md R210: what leaves it stuck, what frees it, and what it may not do. -/

namespace Sys2Proof.Machine

@[simp] theorem sticks_controllerStepNotEnabled (k : StepKind) : (Fault.controllerStepNotEnabled k).sticks = false := rfl
@[simp] theorem sticks_engineNotGranted : Fault.engineNotGranted.sticks = false := rfl
@[simp] theorem sticks_engineStuck : Fault.engineStuck.sticks = false := rfl
@[simp] theorem sticks_enginePageHeld (p : BitVec 15) : (Fault.enginePageHeld p).sticks = false := rfl
@[simp] theorem sticks_engineBankInvalid (b : Bank) : (Fault.engineBankInvalid b).sticks = false := rfl
@[simp] theorem sticks_lockedMissStuck (p : BitVec 15) : (Fault.lockedMissStuck p).sticks = true := rfl

/-- A step that is stuck: the entry is gone, the trace names it, a locked miss leaves the Engine stuck, and nothing else changes. -/
theorem step_stuck {s : State} {x : Txn} {i : Instr} {rest : List Entry} {f : Fault} (hs : s.inbox = .txn x :: rest)
    (hd : decode x = .ok i) (h : exec i { s with inbox := rest } = .fault f) :
    step s = .next { s with inbox := rest, engineStuck := s.engineStuck || f.sticks, trace := s.trace ++ [.stuck f] } := by
  rw [step_txn hs hd, h]; rfl

/-- No bank is there to fill exactly when both are locked (spec/43_dma_cache.md R209). -/
theorem fillBank_none (b : Block) : b.fillBank = none ↔ b.bank0.lock = true ∧ b.bank1.lock = true := by
  unfold Block.fillBank
  cases b.cachePage <;> cases h0 : b.bank0.lock <;> cases h1 : b.bank1.lock <;> simp [h0, h1]

theorem pageHeld_false (b : Block) (p : BitVec 15) : b.pageHeld p = false ↔ b.Misses p := by
  simp [Block.pageHeld, BankState.holds, Block.Misses]

/-- Where ENG-FILL's own effect is a fault: the page is held, or it is a locked miss. -/
theorem requestFill_fault {p : BitVec 15} {s : State} {f : Fault} (h : requestFill p s = .fault f) :
    (s.blk.pageHeld p = true ∧ f = .enginePageHeld p) ∨
      (s.blk.pageHeld p = false ∧ s.blk.fillBank = none ∧ f = .lockedMissStuck p) := by
  unfold requestFill at h
  split at h
  · next hp => cases h; exact .inl ⟨hp, rfl⟩
  · next hp =>
    split at h
    · cases h
    · next hb => simp only [Config.lockedMissPolicy] at h; cases h; exact .inr ⟨by simpa using hp, hb, rfl⟩

/-- An Engine event of a granted Engine that a locked miss has left stuck is stuck. -/
theorem exec_engineStuck {i : Instr} {s : State} (hi : EngineEvent i) (hg : s.blk.engineGrant = true) (hs : s.engineStuck = true) :
    exec i s = .fault .engineStuck := by
  rcases hi with rfl | ⟨_, _, rfl⟩ | ⟨_, rfl⟩ | ⟨_, rfl⟩ | ⟨_, rfl⟩ <;>
    simp only [exec, execEngHalt, execEngGpr, execEngFill, execEngPage, execEngBus] <;> exact whenGranted_engineStuck hg hs

/-- An instruction that answers a next state leaves `engineStuck` as it was, unless it is a lock write that unlocks a bank while
Halted. -/
theorem engineStuck_of_next {i : Instr} {s t : State} (h : exec i s = .next t) :
    t.engineStuck = s.engineStuck ∨
      ∃ a d, i = .wrCachelock a d ∧ s.blk.halt = true ∧ (d.getLsbD 0 && d.getLsbD 1) = false := by
  by_cases hac : ∃ a, i.access? = some a
  · obtain ⟨a, ha⟩ := hac
    rcases exec_window ha with ⟨f, hf⟩ | ⟨f, hf⟩ | ⟨d, rfl⟩
    · rw [hf, windowRead_eq] at h; cases h; exact .inl rfl
    · rw [hf, windowWrite_eq] at h; cases h; exact .inl rfl
    · simp only [exec, execWrCachelock_eq] at h
      cases h
      by_cases hh : s.blk.halt = true
      · cases h3 : (d.getLsbD 0 && d.getLsbD 1)
        · exact .inr ⟨a, d, rfl, hh, h3⟩
        · exact .inl (by simp [hh])
      · exact .inl (by simp [hh])
  cases i
  case romRead ctx addr =>
    cases h; left
    cases ctx
    · simp only [romPortRead]
      split
      · simp [romPassThrough]
      · split <;> simp
    · simp [romPortRead, romPassThrough]
  case speedQuery addr => cases h; exact .inl rfl
  case dmaStart => have := (whenEnabled_next.mp h).2; cases this; exact .inl rfl
  case dmaDone => have := (whenEnabled_next.mp h).2; cases this; exact .inl rfl
  case cloadDone => have := (whenEnabled_next.mp h).2; cases this; exact .inl rfl
  case suspExpire => have := (whenEnabled_next.mp h).2; cases this; exact .inl rfl
  case dmaByte =>
    obtain ⟨v, s1, s2, h1, h2, rfl⟩ := moveDmaByte_next (whenEnabled_next.mp h).2
    left
    rcases chipBusRead_some h1 with ⟨_, _, _, rfl⟩ | ⟨_, _, rfl⟩ <;>
      rcases chipBusWrite_some h2 with ⟨_, _, rfl⟩ | ⟨_, rfl⟩ <;> simp
  case cloadByte =>
    obtain ⟨v, s1, h1, rfl⟩ := moveLoadByte_next (whenEnabled_next.mp h).2
    left
    rcases chipBusRead_some h1 with ⟨_, _, _, rfl⟩ | ⟨_, _, rfl⟩ <;> simp
  case engHalt => simp only [exec, execEngHalt] at h; have := (whenGranted_next.mp h).2; cases this; exact .inl rfl
  case engGpr => simp only [exec, execEngGpr] at h; have := (whenGranted_next.mp h).2; cases this; exact .inl rfl
  case engFill p =>
    obtain ⟨b, _, _, rfl⟩ := requestFill_next (whenGranted_next.mp h).2
    exact .inl rfl
  case engPage b =>
    simp only [exec, execEngPage] at h
    have := (whenGranted_next.mp h).2
    split at this
    · cases this; exact .inl rfl
    · cases this
  case engBus acc =>
    left
    rcases engineBus_next (whenGranted_next.mp h).2 with ⟨a, v, s1, rfl, h1, rfl⟩ | ⟨a, d, rfl, h1⟩
    · rcases chipBusRead_some h1 with ⟨_, _, _, rfl⟩ | ⟨_, _, rfl⟩ <;> simp
    · rcases chipBusWrite_some h1 with ⟨_, _, rfl⟩ | ⟨_, rfl⟩ <;> simp
  all_goals exact absurd ⟨_, rfl⟩ hac

/-- A Controller step whose effect is never a fault leaves no Engine stuck. -/
theorem whenEnabled_sticks {e : Bool} {k : StepKind} {r : Result} {f : Fault} (h : whenEnabled e k r = .fault f)
    (hr : ∀ f, r ≠ .fault f) : f.sticks = false := by
  unfold whenEnabled at h
  split at h
  · exact absurd h (hr _)
  · cases h; rfl

/-- Only ENG-FILL of a page no bank holds, granted and with both banks locked, leaves the Engine stuck. -/
theorem sticks_of_fault {i : Instr} {s : State} {f : Fault} (h : exec i s = .fault f) (hf : f.sticks = true) :
    ∃ p, i = .engFill p ∧ s.blk.engineGrant = true ∧ s.blk.pageHeld p = false ∧ s.blk.fillBank = none := by
  by_cases hac : ∃ a, i.access? = some a
  · obtain ⟨a, ha⟩ := hac
    rcases exec_window ha with ⟨f, hf⟩ | ⟨f, hf⟩ | ⟨d, rfl⟩
    · rw [hf, windowRead_eq] at h; cases h
    · rw [hf, windowWrite_eq] at h; cases h
    · simp only [exec, execWrCachelock_eq] at h; cases h
  cases i
  case romRead => cases h
  case speedQuery => cases h
  case engFill p =>
    rcases whenGranted_fault h with ⟨_, rfl⟩ | ⟨_, _, rfl⟩ | ⟨hg, _, h⟩
    · cases hf
    · cases hf
    · rcases requestFill_fault h with ⟨_, rfl⟩ | ⟨h1, h2, rfl⟩
      · cases hf
      · exact ⟨p, rfl, hg, h1, h2⟩
  case engHalt =>
    simp only [exec, execEngHalt] at h
    rcases whenGranted_fault h with ⟨_, rfl⟩ | ⟨_, _, rfl⟩ | ⟨hg, _, h⟩ <;> [cases hf; cases hf; cases h]
  case engGpr =>
    simp only [exec, execEngGpr] at h
    rcases whenGranted_fault h with ⟨_, rfl⟩ | ⟨_, _, rfl⟩ | ⟨hg, _, h⟩ <;> [cases hf; cases hf; cases h]
  case engPage =>
    simp only [exec, execEngPage] at h
    rcases whenGranted_fault h with ⟨_, rfl⟩ | ⟨_, _, rfl⟩ | ⟨hg, _, h⟩ <;> [cases hf; cases hf; skip]
    split at h <;> cases h; cases hf
  case engBus acc =>
    simp only [exec, execEngBus] at h
    rcases whenGranted_fault h with ⟨_, rfl⟩ | ⟨_, _, rfl⟩ | ⟨hg, _, h⟩ <;> [cases hf; cases hf; skip]
    unfold engineBus at h
    cases acc <;> (simp only at h; split at h <;> cases h)
  case dmaStart => rw [whenEnabled_sticks h (by intro f h; cases h)] at hf; cases hf
  case dmaDone => rw [whenEnabled_sticks h (by intro f h; cases h)] at hf; cases hf
  case cloadDone => rw [whenEnabled_sticks h (by intro f h; cases h)] at hf; cases hf
  case suspExpire => rw [whenEnabled_sticks h (by intro f h; cases h)] at hf; cases hf
  case dmaByte =>
    have hn : ∀ f, moveDmaByte s ≠ .fault f := by
      intro f h
      unfold moveDmaByte at h
      split at h
      · cases h
      · split at h <;> cases h
    rw [whenEnabled_sticks h hn] at hf; cases hf
  case cloadByte =>
    have hn : ∀ f, moveLoadByte s ≠ .fault f := by
      intro f h
      unfold moveLoadByte at h
      split at h <;> cases h
    rw [whenEnabled_sticks h hn] at hf; cases hf
  all_goals exact absurd ⟨_, rfl⟩ hac

end Sys2Proof.Machine
end

