-- ==== Sys2Proof/Laws/PerInstr.lean ====
section
/-! SUPPORT. Facts about every instruction as syntax, one lemma for each constructor. Family Transport: a window transaction goes to
the window port with its access's bank byte third, in three bytes for a read and four for a write; every other transaction goes to
another port. -/

namespace Sys2Proof.Laws.Transport

/-- How an instruction's words travel (notes/assumptions/1.md). -/
def Statement (i : Instr) : Prop :=
  match i.access? with
  | some a => (encode i).port = .window ∧ (encode i).bytes[2]? = some a.bank ∧ 3 ≤ (encode i).bytes.length ∧ (encode i).bytes.length ≤ 4
  | none => (encode i).port ≠ .window

theorem of_encodeRead (a : Access) (o : Offset) :
    (encodeRead a o).port = .window ∧ (encodeRead a o).bytes[2]? = some a.bank ∧ 3 ≤ (encodeRead a o).bytes.length ∧
      (encodeRead a o).bytes.length ≤ 4 := ⟨rfl, rfl, Nat.le_refl 3, Nat.le_succ 3⟩

theorem of_encodeWrite (a : Access) (o : Offset) (d : Byte) :
    (encodeWrite a o d).port = .window ∧ (encodeWrite a o d).bytes[2]? = some a.bank ∧ 3 ≤ (encodeWrite a o d).bytes.length ∧
      (encodeWrite a o d).bytes.length ≤ 4 := ⟨rfl, rfl, Nat.le_succ 3, Nat.le_refl 4⟩

theorem rdScratch0000 (a : Access) (k : BitVec 11) : Statement (.rdScratch0000 a k) := of_encodeRead a _
theorem rdScratch0800 (a : Access) (k : BitVec 10) : Statement (.rdScratch0800 a k) := of_encodeRead a _
theorem rdScratchOor (a : Access) (k : BitVec 10) : Statement (.rdScratchOor a k) := of_encodeRead a _
theorem rdScratch1000 (a : Access) (k : BitVec 11) : Statement (.rdScratch1000 a k) := of_encodeRead a _
theorem rdScratch1800 (a : Access) (k : BitVec 10) : Statement (.rdScratch1800 a k) := of_encodeRead a _
theorem rdUnmapped1C00 (a : Access) (k : BitVec 9) : Statement (.rdUnmapped1C00 a k) := of_encodeRead a _
theorem rdUnmapped1E00 (a : Access) (k : BitVec 8) : Statement (.rdUnmapped1E00 a k) := of_encodeRead a _
theorem rdUnmapped1F00 (a : Access) (k : BitVec 6) : Statement (.rdUnmapped1F00 a k) := of_encodeRead a _
theorem rdDmasrcL (a : Access) : Statement (.rdDmasrcL a) := of_encodeRead a _
theorem rdDmasrcM (a : Access) : Statement (.rdDmasrcM a) := of_encodeRead a _
theorem rdDmasrcH (a : Access) : Statement (.rdDmasrcH a) := of_encodeRead a _
theorem rdDmalenL (a : Access) : Statement (.rdDmalenL a) := of_encodeRead a _
theorem rdDmalenH (a : Access) : Statement (.rdDmalenH a) := of_encodeRead a _
theorem rdDmatgtL (a : Access) : Statement (.rdDmatgtL a) := of_encodeRead a _
theorem rdDmatgtM (a : Access) : Statement (.rdDmatgtM a) := of_encodeRead a _
theorem rdDmatgtH (a : Access) : Statement (.rdDmatgtH a) := of_encodeRead a _
theorem rdCpreload (a : Access) : Statement (.rdCpreload a) := of_encodeRead a _
theorem rdProgofsL (a : Access) : Statement (.rdProgofsL a) := of_encodeRead a _
theorem rdProgofsM (a : Access) : Statement (.rdProgofsM a) := of_encodeRead a _
theorem rdProgofsH (a : Access) : Statement (.rdProgofsH a) := of_encodeRead a _
theorem rdCachelock (a : Access) : Statement (.rdCachelock a) := of_encodeRead a _
theorem rdPageL (a : Access) : Statement (.rdPageL a) := of_encodeRead a _
theorem rdPageH (a : Access) : Statement (.rdPageH a) := of_encodeRead a _
theorem rdPc (a : Access) : Statement (.rdPc a) := of_encodeRead a _
theorem rdSpeed (a : Access) : Statement (.rdSpeed a) := of_encodeRead a _
theorem rdR1F51 (a : Access) : Statement (.rdR1F51 a) := of_encodeRead a _
theorem rdR1F52 (a : Access) : Statement (.rdR1F52 a) := of_encodeRead a _
theorem rdStatus1F53 (a : Access) : Statement (.rdStatus1F53 a) := of_encodeRead a _
theorem rdStatus1F54 (a : Access) : Statement (.rdStatus1F54 a) := of_encodeRead a _
theorem rdStatus1F55 (a : Access) : Statement (.rdStatus1F55 a) := of_encodeRead a _
theorem rdStatus1F56 (a : Access) : Statement (.rdStatus1F56 a) := of_encodeRead a _
theorem rdStatus1F57 (a : Access) : Statement (.rdStatus1F57 a) := of_encodeRead a _
theorem rdStatus1F58 (a : Access) : Statement (.rdStatus1F58 a) := of_encodeRead a _
theorem rdStatus1F59 (a : Access) : Statement (.rdStatus1F59 a) := of_encodeRead a _
theorem rdStatus1F5A (a : Access) : Statement (.rdStatus1F5A a) := of_encodeRead a _
theorem rdStatus1F5B (a : Access) : Statement (.rdStatus1F5B a) := of_encodeRead a _
theorem rdStatus1F5C (a : Access) : Statement (.rdStatus1F5C a) := of_encodeRead a _
theorem rdStatus1F5D (a : Access) : Statement (.rdStatus1F5D a) := of_encodeRead a _
theorem rdStatus1F5E (a : Access) : Statement (.rdStatus1F5E a) := of_encodeRead a _
theorem rdStatus1F5F (a : Access) : Statement (.rdStatus1F5F a) := of_encodeRead a _
theorem rdVector (a : Access) (k : BitVec 5) : Statement (.rdVector a k) := of_encodeRead a _
theorem rdGprA0 (a : Access) (k : BitVec 5) : Statement (.rdGprA0 a k) := of_encodeRead a _
theorem rdGprA1 (a : Access) (k : BitVec 4) : Statement (.rdGprA1 a k) := of_encodeRead a _
theorem rdUnmapped1FB0 (a : Access) (k : BitVec 4) : Statement (.rdUnmapped1FB0 a k) := of_encodeRead a _
theorem rdGprB0 (a : Access) (k : BitVec 5) : Statement (.rdGprB0 a k) := of_encodeRead a _
theorem rdGprB1 (a : Access) (k : BitVec 4) : Statement (.rdGprB1 a k) := of_encodeRead a _
theorem rdUnmapped1FF0 (a : Access) (k : BitVec 4) : Statement (.rdUnmapped1FF0 a k) := of_encodeRead a _
theorem wrScratch0000 (a : Access) (k : BitVec 11) (d : Byte) : Statement (.wrScratch0000 a k d) := of_encodeWrite a _ d
theorem wrScratch0800 (a : Access) (k : BitVec 10) (d : Byte) : Statement (.wrScratch0800 a k d) := of_encodeWrite a _ d
theorem wrScratchOor (a : Access) (k : BitVec 10) (d : Byte) : Statement (.wrScratchOor a k d) := of_encodeWrite a _ d
theorem wrScratch1000 (a : Access) (k : BitVec 11) (d : Byte) : Statement (.wrScratch1000 a k d) := of_encodeWrite a _ d
theorem wrScratch1800 (a : Access) (k : BitVec 10) (d : Byte) : Statement (.wrScratch1800 a k d) := of_encodeWrite a _ d
theorem wrUnmapped1C00 (a : Access) (k : BitVec 9) (d : Byte) : Statement (.wrUnmapped1C00 a k d) := of_encodeWrite a _ d
theorem wrUnmapped1E00 (a : Access) (k : BitVec 8) (d : Byte) : Statement (.wrUnmapped1E00 a k d) := of_encodeWrite a _ d
theorem wrUnmapped1F00 (a : Access) (k : BitVec 6) (d : Byte) : Statement (.wrUnmapped1F00 a k d) := of_encodeWrite a _ d
theorem wrDmasrcL (a : Access) (d : Byte) : Statement (.wrDmasrcL a d) := of_encodeWrite a _ d
theorem wrDmasrcM (a : Access) (d : Byte) : Statement (.wrDmasrcM a d) := of_encodeWrite a _ d
theorem wrDmasrcH (a : Access) (d : Byte) : Statement (.wrDmasrcH a d) := of_encodeWrite a _ d
theorem wrDmalenL (a : Access) (d : Byte) : Statement (.wrDmalenL a d) := of_encodeWrite a _ d
theorem wrDmalenH (a : Access) (d : Byte) : Statement (.wrDmalenH a d) := of_encodeWrite a _ d
theorem wrDmatgtL (a : Access) (d : Byte) : Statement (.wrDmatgtL a d) := of_encodeWrite a _ d
theorem wrDmatgtM (a : Access) (d : Byte) : Statement (.wrDmatgtM a d) := of_encodeWrite a _ d
theorem wrDmatgtH (a : Access) (d : Byte) : Statement (.wrDmatgtH a d) := of_encodeWrite a _ d
theorem wrCpreload (a : Access) (d : Byte) : Statement (.wrCpreload a d) := of_encodeWrite a _ d
theorem wrProgofsL (a : Access) (d : Byte) : Statement (.wrProgofsL a d) := of_encodeWrite a _ d
theorem wrProgofsM (a : Access) (d : Byte) : Statement (.wrProgofsM a d) := of_encodeWrite a _ d
theorem wrProgofsH (a : Access) (d : Byte) : Statement (.wrProgofsH a d) := of_encodeWrite a _ d
theorem wrCachelock (a : Access) (d : Byte) : Statement (.wrCachelock a d) := of_encodeWrite a _ d
theorem wrPageL (a : Access) (d : Byte) : Statement (.wrPageL a d) := of_encodeWrite a _ d
theorem wrPageH (a : Access) (d : Byte) : Statement (.wrPageH a d) := of_encodeWrite a _ d
theorem wrPc (a : Access) (d : Byte) : Statement (.wrPc a d) := of_encodeWrite a _ d
theorem wrSpeed (a : Access) (d : Byte) : Statement (.wrSpeed a d) := of_encodeWrite a _ d
theorem wrR1F51 (a : Access) (d : Byte) : Statement (.wrR1F51 a d) := of_encodeWrite a _ d
theorem wrR1F52 (a : Access) (d : Byte) : Statement (.wrR1F52 a d) := of_encodeWrite a _ d
theorem wrHalt (a : Access) (d : Byte) : Statement (.wrHalt a d) := of_encodeWrite a _ d
theorem wrNop1F54 (a : Access) (d : Byte) : Statement (.wrNop1F54 a d) := of_encodeWrite a _ d
theorem wrSuspend0 (a : Access) (d : Byte) : Statement (.wrSuspend0 a d) := of_encodeWrite a _ d
theorem wrSuspend1 (a : Access) (d : Byte) : Statement (.wrSuspend1 a d) := of_encodeWrite a _ d
theorem wrSuspend2 (a : Access) (d : Byte) : Statement (.wrSuspend2 a d) := of_encodeWrite a _ d
theorem wrSuspend3 (a : Access) (d : Byte) : Statement (.wrSuspend3 a d) := of_encodeWrite a _ d
theorem wrSuspend4 (a : Access) (d : Byte) : Statement (.wrSuspend4 a d) := of_encodeWrite a _ d
theorem wrSuspend5 (a : Access) (d : Byte) : Statement (.wrSuspend5 a d) := of_encodeWrite a _ d
theorem wrSuspend6 (a : Access) (d : Byte) : Statement (.wrSuspend6 a d) := of_encodeWrite a _ d
theorem wrSuspend7 (a : Access) (d : Byte) : Statement (.wrSuspend7 a d) := of_encodeWrite a _ d
theorem wrUnsuspend (a : Access) (d : Byte) : Statement (.wrUnsuspend a d) := of_encodeWrite a _ d
theorem wrNop1F5E (a : Access) (d : Byte) : Statement (.wrNop1F5E a d) := of_encodeWrite a _ d
theorem wrNop1F5F (a : Access) (d : Byte) : Statement (.wrNop1F5F a d) := of_encodeWrite a _ d
theorem wrVector (a : Access) (k : BitVec 5) (d : Byte) : Statement (.wrVector a k d) := of_encodeWrite a _ d
theorem wrGprA0 (a : Access) (k : BitVec 5) (d : Byte) : Statement (.wrGprA0 a k d) := of_encodeWrite a _ d
theorem wrGprA1 (a : Access) (k : BitVec 4) (d : Byte) : Statement (.wrGprA1 a k d) := of_encodeWrite a _ d
theorem wrUnmapped1FB0 (a : Access) (k : BitVec 4) (d : Byte) : Statement (.wrUnmapped1FB0 a k d) := of_encodeWrite a _ d
theorem wrGprB0 (a : Access) (k : BitVec 5) (d : Byte) : Statement (.wrGprB0 a k d) := of_encodeWrite a _ d
theorem wrGprB1 (a : Access) (k : BitVec 4) (d : Byte) : Statement (.wrGprB1 a k d) := of_encodeWrite a _ d
theorem wrUnmapped1FF0 (a : Access) (k : BitVec 4) (d : Byte) : Statement (.wrUnmapped1FF0 a k d) := of_encodeWrite a _ d
theorem romRead (ctx : Ctx) (addr : Addr) : Statement (.romRead ctx addr) := Port.noConfusion
theorem speedQuery (addr : Addr) : Statement (.speedQuery addr) := Port.noConfusion
theorem dmaStart : Statement .dmaStart := Port.noConfusion
theorem dmaByte : Statement .dmaByte := Port.noConfusion
theorem dmaDone : Statement .dmaDone := Port.noConfusion
theorem cloadByte : Statement .cloadByte := Port.noConfusion
theorem cloadDone : Statement .cloadDone := Port.noConfusion
theorem suspExpire : Statement .suspExpire := Port.noConfusion
theorem engHalt : Statement .engHalt := Port.noConfusion
theorem engGpr (i : BitVec 4) (v : BitVec 24) : Statement (.engGpr i v) := Port.noConfusion
theorem engFill (p : BitVec 15) : Statement (.engFill p) := Port.noConfusion
theorem engPage (b : Bank) : Statement (.engPage b) := Port.noConfusion
theorem engBus (acc : BusAccess) : Statement (.engBus acc) := by cases acc <;> exact Port.noConfusion

end Sys2Proof.Laws.Transport
end

