-- ==== Sys2Proof/Tests/Slice0.lean ====
section
/-! SUPPORT. Tests: what well-formedness and the decoder refuse, words written out from the spec's encodings, single steps with the
results of spec/95_test_vectors.md (a test's vector stands in its comment), and a witness for the hypotheses of every statement. -/

namespace Sys2Proof.Tests

open Sys2Proof.Machine

/-! ## Helpers -/

/-- A host access through bank 0x00, and a debug access through the same bank. -/
abbrev host : Access := ⟨false, 0x00⟩
abbrev unsynced : Access := ⟨true, 0x00⟩

/-- A state with the block `b` and nothing else. -/
def st (b : Block) : State := { State.reset with blk := b }

/-- The block after initialisation, but Running. -/
def running : Block := { Block.reset with halt := false }

/-- The outcome is a next state for which `p` holds. -/
def gives (r : Result) (p : State → Bool) : Bool :=
  match r with
  | .next t => p t
  | _ => false

/-- The outcome is this fault. -/
def faults (r : Result) (f : Fault) : Bool :=
  match r with
  | .fault g => g == f
  | _ => false

/-- The outcome is this refusal. -/
def refuses (r : Result) (f : Refusal) : Bool :=
  match r with
  | .refused g => g == f
  | _ => false

/-- A read that returns `d` after its `Sync` and leaves the block as it was. -/
def returns (i : Instr) (s : State) (d : Byte) : Bool :=
  gives (exec i s) fun t => t.trace == s.trace ++ [.sync .host, .readData d] && t.blk == s.blk

/-- Every transaction decodes to its instruction. -/
def decodesTo (rows : List (Txn × Instr)) : Bool :=
  rows.all fun r =>
    match decode r.1 with
    | .ok i => i == r.2
    | .error _ => false

/-- The transaction is rejected with `e`. -/
def rejects (t : Txn) (e : DecodeError) : Bool :=
  match decode t with
  | .ok _ => false
  | .error f => f == e

/-! ## Well-formedness -/

/-- Banks 0x40, 0x7F and 0xC0 are outside the window of R81, for a read, a write, a register and a GPR. -/
theorem test_illformed_bank :
    ([Instr.rdScratch0000 ⟨false, 0x40⟩ 0, .wrPc ⟨true, 0x7F⟩ 0, .wrGprB1 ⟨false, 0xC0⟩ 3 1, .rdVector ⟨false, 0xFF⟩ 0].all
      fun i => !i.wellFormed) = true := by decide

/-- Banks 0x00, 0x3F, 0x80 and 0xBF are in the window; the other formats admit every operand. -/
theorem test_wellformed :
    ([Instr.rdScratch0000 host 0, .wrPc ⟨true, 0x3F⟩ 0, .wrGprB1 ⟨false, 0x80⟩ 3 1, .rdVector ⟨false, 0xBF⟩ 0, .romRead .chip 0x40FFFF,
      .speedQuery 0xFFFFFF, .dmaStart, .engFill 0x7FFF].all fun i => i.wellFormed) = true := by decide

/-! ## What the decoder rejects -/

theorem test_reject_not_in_window :
    ([⟨.window, [0x40, 0x1F, 0x40]⟩, ⟨.window, [0x40, 0x3F, 0x7F, 0x00]⟩, ⟨.window, [0x00, 0x00, 0xC0]⟩].all
      fun t => rejects t .notInChipWindow) = true := by decide

theorem test_reject_reserved_bits :
    ([⟨.window, [0x40, 0x9F, 0x00]⟩, ⟨.rom, [0, 0, 0, 2]⟩, ⟨.event, [1, 0x10, 0, 0, 0]⟩, ⟨.event, [2, 0, 0x80]⟩,
      ⟨.event, [3, 2]⟩].all fun t => rejects t .reservedBits) = true := by decide

theorem test_reject_wrong_length :
    ([⟨.window, []⟩, ⟨.window, [0x40, 0x1F, 0x00, 0x00]⟩, ⟨.window, [0x40, 0x3F, 0x00]⟩, ⟨.rom, [0, 0, 0]⟩, ⟨.speed, [0]⟩,
      ⟨.step, []⟩, ⟨.event, [0, 0]⟩, ⟨.event, [4, 0, 0, 0, 0, 0]⟩].all fun t => rejects t .wrongLength) = true := by decide

theorem test_reject_unknown_kind :
    ([⟨.step, [6]⟩, ⟨.step, [0x10]⟩, ⟨.event, [5]⟩].all fun t => rejects t .unknownKind) = true := by decide

/-! ## Decoding: words written out from the spec's encodings -/

/-- RD_SCRATCH rows, R82 and R105, R106: key 0ooooooooooooo, the low byte first. -/
theorem test_decode_scratch_reads :
    decodesTo
    [(⟨.window, [0x23, 0x01, 0x00]⟩, .rdScratch0000 host 0x123),
     (⟨.window, [0x34, 0x0A, 0x00]⟩, .rdScratch0800 host 0x234),
     (⟨.window, [0xFF, 0x0F, 0x00]⟩, .rdScratchOor host 0x3FF),
     (⟨.window, [0xFF, 0x17, 0x00]⟩, .rdScratch1000 host 0x7FF),
     (⟨.window, [0xFF, 0x1B, 0x00]⟩, .rdScratch1800 host 0x3FF)] = true := by decide

/-- WR_SCRATCH rows, R82 and R107, R108: key 1ooooooooooooo. -/
theorem test_decode_scratch_writes :
    decodesTo
    [(⟨.window, [0x23, 0x21, 0x00, 0x5A]⟩, .wrScratch0000 host 0x123 0x5A),
     (⟨.window, [0x34, 0x2A, 0x00, 0x5A]⟩, .wrScratch0800 host 0x234 0x5A),
     (⟨.window, [0xFF, 0x2F, 0x00, 0x5A]⟩, .wrScratchOor host 0x3FF 0x5A),
     (⟨.window, [0xFF, 0x37, 0x00, 0x5A]⟩, .wrScratch1000 host 0x7FF 0x5A),
     (⟨.window, [0xFF, 0x3B, 0x00, 0x5A]⟩, .wrScratch1800 host 0x3FF 0x5A)] = true := by decide

/-- RD_UNMAPPED rows, R83 and R154: the first and the last offset of each range. -/
theorem test_decode_unmapped_reads :
    decodesTo
    [(⟨.window, [0x00, 0x1C, 0x00]⟩, .rdUnmapped1C00 host 0x0),
     (⟨.window, [0xFF, 0x1D, 0x00]⟩, .rdUnmapped1C00 host 0x1FF),
     (⟨.window, [0x00, 0x1E, 0x00]⟩, .rdUnmapped1E00 host 0x0),
     (⟨.window, [0xFF, 0x1E, 0x00]⟩, .rdUnmapped1E00 host 0xFF),
     (⟨.window, [0x00, 0x1F, 0x00]⟩, .rdUnmapped1F00 host 0x0),
     (⟨.window, [0x3F, 0x1F, 0x00]⟩, .rdUnmapped1F00 host 0x3F),
     (⟨.window, [0xB0, 0x1F, 0x00]⟩, .rdUnmapped1FB0 host 0x0),
     (⟨.window, [0xBF, 0x1F, 0x00]⟩, .rdUnmapped1FB0 host 0xF)] = true ∧
    decodesTo
    [(⟨.window, [0xF0, 0x1F, 0x00]⟩, .rdUnmapped1FF0 host 0x0),
     (⟨.window, [0xFF, 0x1F, 0x00]⟩, .rdUnmapped1FF0 host 0xF)] = true := by decide

/-- WR_UNMAPPED rows, R83 and R198: the last offset of each range. -/
theorem test_decode_unmapped_writes :
    decodesTo
    [(⟨.window, [0xFF, 0x3D, 0x00, 0x12]⟩, .wrUnmapped1C00 host 0x1FF 0x12),
     (⟨.window, [0xFF, 0x3E, 0x00, 0x12]⟩, .wrUnmapped1E00 host 0xFF 0x12),
     (⟨.window, [0x3F, 0x3F, 0x00, 0x12]⟩, .wrUnmapped1F00 host 0x3F 0x12),
     (⟨.window, [0xBF, 0x3F, 0x00, 0x12]⟩, .wrUnmapped1FB0 host 0xF 0x12),
     (⟨.window, [0xFF, 0x3F, 0x00, 0x12]⟩, .wrUnmapped1FF0 host 0xF 0x12)] = true := by decide

/-- The register block's read column, offsets 0x1F40 to 0x1F52 of R84. -/
theorem test_decode_register_reads :
    decodesTo
    [(⟨.window, [0x40, 0x1F, 0x00]⟩, .rdDmasrcL host),
     (⟨.window, [0x41, 0x1F, 0x00]⟩, .rdDmasrcM host),
     (⟨.window, [0x42, 0x1F, 0x00]⟩, .rdDmasrcH host),
     (⟨.window, [0x43, 0x1F, 0x00]⟩, .rdDmalenL host),
     (⟨.window, [0x44, 0x1F, 0x00]⟩, .rdDmalenH host),
     (⟨.window, [0x45, 0x1F, 0x00]⟩, .rdDmatgtL host),
     (⟨.window, [0x46, 0x1F, 0x00]⟩, .rdDmatgtM host),
     (⟨.window, [0x47, 0x1F, 0x00]⟩, .rdDmatgtH host)] = true ∧
    decodesTo
    [(⟨.window, [0x48, 0x1F, 0x00]⟩, .rdCpreload host),
     (⟨.window, [0x49, 0x1F, 0x00]⟩, .rdProgofsL host),
     (⟨.window, [0x4A, 0x1F, 0x00]⟩, .rdProgofsM host),
     (⟨.window, [0x4B, 0x1F, 0x00]⟩, .rdProgofsH host),
     (⟨.window, [0x4C, 0x1F, 0x00]⟩, .rdCachelock host),
     (⟨.window, [0x4D, 0x1F, 0x00]⟩, .rdPageL host),
     (⟨.window, [0x4E, 0x1F, 0x00]⟩, .rdPageH host),
     (⟨.window, [0x4F, 0x1F, 0x00]⟩, .rdPc host)] = true ∧
    decodesTo
    [(⟨.window, [0x50, 0x1F, 0x00]⟩, .rdSpeed host),
     (⟨.window, [0x51, 0x1F, 0x00]⟩, .rdR1F51 host),
     (⟨.window, [0x52, 0x1F, 0x00]⟩, .rdR1F52 host)] = true := by decide

/-- The thirteen status aliases, offsets 0x1F53 to 0x1F5F of R84. -/
theorem test_decode_status_reads :
    decodesTo
    [(⟨.window, [0x53, 0x1F, 0x00]⟩, .rdStatus1F53 host),
     (⟨.window, [0x54, 0x1F, 0x00]⟩, .rdStatus1F54 host),
     (⟨.window, [0x55, 0x1F, 0x00]⟩, .rdStatus1F55 host),
     (⟨.window, [0x56, 0x1F, 0x00]⟩, .rdStatus1F56 host),
     (⟨.window, [0x57, 0x1F, 0x00]⟩, .rdStatus1F57 host),
     (⟨.window, [0x58, 0x1F, 0x00]⟩, .rdStatus1F58 host),
     (⟨.window, [0x59, 0x1F, 0x00]⟩, .rdStatus1F59 host),
     (⟨.window, [0x5A, 0x1F, 0x00]⟩, .rdStatus1F5A host)] = true ∧
    decodesTo
    [(⟨.window, [0x5B, 0x1F, 0x00]⟩, .rdStatus1F5B host),
     (⟨.window, [0x5C, 0x1F, 0x00]⟩, .rdStatus1F5C host),
     (⟨.window, [0x5D, 0x1F, 0x00]⟩, .rdStatus1F5D host),
     (⟨.window, [0x5E, 0x1F, 0x00]⟩, .rdStatus1F5E host),
     (⟨.window, [0x5F, 0x1F, 0x00]⟩, .rdStatus1F5F host)] = true := by decide

/-- The register block's write column, offsets 0x1F40 to 0x1F52 of R84. -/
theorem test_decode_register_writes :
    decodesTo
    [(⟨.window, [0x40, 0x3F, 0x00, 0xA0]⟩, .wrDmasrcL host 0xA0),
     (⟨.window, [0x41, 0x3F, 0x00, 0xA1]⟩, .wrDmasrcM host 0xA1),
     (⟨.window, [0x42, 0x3F, 0x00, 0xA2]⟩, .wrDmasrcH host 0xA2),
     (⟨.window, [0x43, 0x3F, 0x00, 0xA3]⟩, .wrDmalenL host 0xA3),
     (⟨.window, [0x44, 0x3F, 0x00, 0xA4]⟩, .wrDmalenH host 0xA4),
     (⟨.window, [0x45, 0x3F, 0x00, 0xA5]⟩, .wrDmatgtL host 0xA5),
     (⟨.window, [0x46, 0x3F, 0x00, 0xA6]⟩, .wrDmatgtM host 0xA6),
     (⟨.window, [0x47, 0x3F, 0x00, 0xA7]⟩, .wrDmatgtH host 0xA7)] = true ∧
    decodesTo
    [(⟨.window, [0x48, 0x3F, 0x00, 0xA8]⟩, .wrCpreload host 0xA8),
     (⟨.window, [0x49, 0x3F, 0x00, 0xA9]⟩, .wrProgofsL host 0xA9),
     (⟨.window, [0x4A, 0x3F, 0x00, 0xAA]⟩, .wrProgofsM host 0xAA),
     (⟨.window, [0x4B, 0x3F, 0x00, 0xAB]⟩, .wrProgofsH host 0xAB),
     (⟨.window, [0x4C, 0x3F, 0x00, 0xAC]⟩, .wrCachelock host 0xAC),
     (⟨.window, [0x4D, 0x3F, 0x00, 0xAD]⟩, .wrPageL host 0xAD),
     (⟨.window, [0x4E, 0x3F, 0x00, 0xAE]⟩, .wrPageH host 0xAE),
     (⟨.window, [0x4F, 0x3F, 0x00, 0xAF]⟩, .wrPc host 0xAF)] = true ∧
    decodesTo
    [(⟨.window, [0x50, 0x3F, 0x00, 0xB0]⟩, .wrSpeed host 0xB0),
     (⟨.window, [0x51, 0x3F, 0x00, 0xB1]⟩, .wrR1F51 host 0xB1),
     (⟨.window, [0x52, 0x3F, 0x00, 0xB2]⟩, .wrR1F52 host 0xB2)] = true := by decide

/-- Offsets 0x1F53 to 0x1F5F of R84: halt, suspend 0 to 7, unsuspend and the no-ops. -/
theorem test_decode_run_state_writes :
    decodesTo
    [(⟨.window, [0x53, 0x3F, 0x00, 0xFF]⟩, .wrHalt host 0xFF),
     (⟨.window, [0x54, 0x3F, 0x00, 0xFF]⟩, .wrNop1F54 host 0xFF),
     (⟨.window, [0x55, 0x3F, 0x00, 0xFF]⟩, .wrSuspend0 host 0xFF),
     (⟨.window, [0x56, 0x3F, 0x00, 0xFF]⟩, .wrSuspend1 host 0xFF),
     (⟨.window, [0x57, 0x3F, 0x00, 0xFF]⟩, .wrSuspend2 host 0xFF),
     (⟨.window, [0x58, 0x3F, 0x00, 0xFF]⟩, .wrSuspend3 host 0xFF),
     (⟨.window, [0x59, 0x3F, 0x00, 0xFF]⟩, .wrSuspend4 host 0xFF),
     (⟨.window, [0x5A, 0x3F, 0x00, 0xFF]⟩, .wrSuspend5 host 0xFF)] = true ∧
    decodesTo
    [(⟨.window, [0x5B, 0x3F, 0x00, 0xFF]⟩, .wrSuspend6 host 0xFF),
     (⟨.window, [0x5C, 0x3F, 0x00, 0xFF]⟩, .wrSuspend7 host 0xFF),
     (⟨.window, [0x5D, 0x3F, 0x00, 0xFF]⟩, .wrUnsuspend host 0xFF),
     (⟨.window, [0x5E, 0x3F, 0x00, 0xFF]⟩, .wrNop1F5E host 0xFF),
     (⟨.window, [0x5F, 0x3F, 0x00, 0xFF]⟩, .wrNop1F5F host 0xFF)] = true := by decide

/-- RD_VECTOR and RD_GPR rows, R83: the first and the last offset of each range. -/
theorem test_decode_vector_and_gpr_reads :
    decodesTo
    [(⟨.window, [0x60, 0x1F, 0x00]⟩, .rdVector host 0x0),
     (⟨.window, [0x7F, 0x1F, 0x00]⟩, .rdVector host 0x1F),
     (⟨.window, [0x80, 0x1F, 0x00]⟩, .rdGprA0 host 0x0),
     (⟨.window, [0x9F, 0x1F, 0x00]⟩, .rdGprA0 host 0x1F),
     (⟨.window, [0xA0, 0x1F, 0x00]⟩, .rdGprA1 host 0x0),
     (⟨.window, [0xAF, 0x1F, 0x00]⟩, .rdGprA1 host 0xF),
     (⟨.window, [0xC0, 0x1F, 0x00]⟩, .rdGprB0 host 0x0),
     (⟨.window, [0xDF, 0x1F, 0x00]⟩, .rdGprB0 host 0x1F)] = true ∧
    decodesTo
    [(⟨.window, [0xE0, 0x1F, 0x00]⟩, .rdGprB1 host 0x0),
     (⟨.window, [0xEF, 0x1F, 0x00]⟩, .rdGprB1 host 0xF)] = true := by decide

/-- WR_VECTOR and WR_GPR rows, R83: the last offset of each range. -/
theorem test_decode_vector_and_gpr_writes :
    decodesTo
    [(⟨.window, [0x7F, 0x3F, 0x00, 0x9A]⟩, .wrVector host 0x1F 0x9A),
     (⟨.window, [0x9F, 0x3F, 0x00, 0x9A]⟩, .wrGprA0 host 0x1F 0x9A),
     (⟨.window, [0xAF, 0x3F, 0x00, 0x9A]⟩, .wrGprA1 host 0xF 0x9A),
     (⟨.window, [0xDF, 0x3F, 0x00, 0x9A]⟩, .wrGprB0 host 0x1F 0x9A),
     (⟨.window, [0xEF, 0x3F, 0x00, 0x9A]⟩, .wrGprB1 host 0xF 0x9A)] = true := by decide

/-- Key bit 14 is dbg (R80), and banks 0x3F and 0xBF are the last of R81's window: T8's key 0x7F4F, T7's key 0x4000. -/
theorem test_decode_debug_accesses :
    decodesTo
    [(⟨.window, [0x4F, 0x7F, 0x00, 0x34]⟩, .wrPc ⟨true, 0x00⟩ 0x34),
     (⟨.window, [0x00, 0x40, 0x80]⟩, .rdScratch0000 ⟨true, 0x80⟩ 0),
     (⟨.window, [0x05, 0x10, 0x3F]⟩, .rdScratch1000 ⟨false, 0x3F⟩ 5),
     (⟨.window, [0x05, 0x00, 0xBF]⟩, .rdScratch0000 ⟨false, 0xBF⟩ 5)] = true := by decide

/-- ROM-R and SPEED are keyed by the 24-bit address (R80); ctx follows a ROM-R address. -/
theorem test_decode_rom_and_speed :
    decodesTo
    [(⟨.rom, [0xFC, 0xFF, 0x00, 0x00]⟩, .romRead .host 0x00FFFC),
     (⟨.rom, [0x00, 0x80, 0x0A, 0x01]⟩, .romRead .chip 0x0A8000),
     (⟨.speed, [0x00, 0x80, 0x01]⟩, .speedQuery 0x018000)] = true := by decide

/-- The kind numbers of the STEP rows (R80). -/
theorem test_decode_steps :
    decodesTo
    [(⟨.step, [0]⟩, .dmaStart),
     (⟨.step, [1]⟩, .dmaByte),
     (⟨.step, [2]⟩, .dmaDone),
     (⟨.step, [3]⟩, .cloadByte),
     (⟨.step, [4]⟩, .cloadDone),
     (⟨.step, [5]⟩, .suspExpire)] = true := by decide

/-- The kind numbers of the EVENT rows (R80), then the operands of R245 to R248. -/
theorem test_decode_events :
    decodesTo
    [(⟨.event, [0]⟩, .engHalt),
     (⟨.event, [1, 0x0F, 0xEF, 0xCD, 0xAB]⟩, .engGpr 15 0xABCDEF),
     (⟨.event, [2, 0xFF, 0x7F]⟩, .engFill 0x7FFF),
     (⟨.event, [3, 1]⟩, .engPage .b1),
     (⟨.event, [3, 0]⟩, .engPage .b0),
     (⟨.event, [4, 0, 0x10, 0x60, 0x00]⟩, .engBus (.read 0x006010)),
     (⟨.event, [4, 1, 0x10, 0x60, 0x00, 0xAA]⟩, .engBus (.write 0x006010 0xAA))] = true := by decide

/-! ## Reset -/

/-- R280, R281, T17: Halted, and the status byte reads 0x02. -/
theorem test_reset_status : returns (.rdStatus1F53 host) State.reset 0x02 = true := by decide

/-- R280: nothing armed, active, loading or suspended. -/
theorem test_reset_flags :
    (Block.reset.halt && !Block.reset.dmaPending && !Block.reset.dmaActive && !Block.reset.cacheLoading && !Block.reset.suspend) = true := by
  decide

/-! ## Scratch memory, synchronisation and debug accesses -/

/-- T2: the alias at offset 0x1123. -/
theorem test_scratch_alias_read :
    returns (.rdScratch1000 host 0x123) (st { Block.reset with scratch := [(0x123, 0x9A)] }) 0x9A = true := by decide

/-- R105: index 0xBFF through the upper alias. -/
theorem test_scratch_last_byte :
    returns (.rdScratch1800 host 0x3FF) (st { Block.reset with scratch := [(0xBFF, 0x7E)] }) 0x7E = true ∧
    returns (.rdScratch0800 host 0x3FF) (st { Block.reset with scratch := [(0xBFF, 0x7E)] }) 0x7E = true := by decide

/-- T3, E6: a write at offset 0x1BFF reaches index 0xBFF. -/
theorem test_scratch_write_upper_alias :
    gives (exec (.wrScratch1800 host 0x3FF 0x3C) State.reset) (fun t => t.blk.scratch == [(0xBFF, 0x3C)]) = true ∧
    gives (exec (.wrScratch0800 host 0x3FF 0x7E) State.reset) (fun t => t.blk.scratch == [(0xBFF, 0x7E)]) = true := by decide

/-- T1, R107: writes through the lower offsets of both aliases. -/
theorem test_scratch_write_lower :
    gives (exec (.wrScratch0000 host 0 0xA5) State.reset) (fun t => t.blk.scratch == [(0, 0xA5)]) = true ∧
    gives (exec (.wrScratch1000 host 0x123 0x9A) State.reset) (fun t => t.blk.scratch == [(0x123, 0x9A)]) = true := by decide

/-- Writing the byte an unlisted address reads as removes the cell: the memory keeps its canonical form. -/
theorem test_scratch_write_zero :
    gives (exec (.wrScratch0000 host 5 0) (st { Block.reset with scratch := [(4, 1), (5, 2), (6, 3)] }))
      (fun t => t.blk.scratch == [(4, 1), (6, 3)]) = true := by decide

/-- T4, E6: the out-of-range band has no effect and does not wrap. -/
theorem test_scratch_out_of_range_write :
    gives (exec (.wrScratchOor host 0 0x22) (st { Block.reset with scratch := [(0, 0x11)] }))
      (fun t => t.blk.scratch == [(0, 0x11)]) = true := by decide

/-- E6: it reads 0. -/
theorem test_scratch_out_of_range_read :
    returns (.rdScratchOor host 5) (st { Block.reset with scratch := [(5, 0x11)] }) 0 = true := by decide

/-- T6 and T7: one Sync, before the value; none for the debug read, which returns the same value. -/
theorem test_sync_and_debug_read :
    gives (exec (.rdScratch0000 host 0) (st { Block.reset with scratch := [(0, 7)] }))
      (fun t => t.trace == [.sync .host, .readData 7]) = true ∧
    gives (exec (.rdScratch0000 unsynced 0) (st { Block.reset with scratch := [(0, 7)] }))
      (fun t => t.trace == [.readData 7]) = true := by decide

/-- T8: a debug write of the program counter starts the chip, with no Sync. -/
theorem test_debug_run_start :
    gives (exec (.wrPc unsynced 0x34) (st { Block.reset with pageNumber := 0x0012 }))
      (fun t => !t.blk.halt && t.blk.pcFull == 0x001234 && t.trace == []) = true := by decide

/-! ## Register reads -/

/-- R131 to R133. -/
theorem test_read_dma_source :
    returns (.rdDmasrcL host) (st { Block.reset with dmaSource := 0x123456 }) 0x56 = true ∧
    returns (.rdDmasrcM host) (st { Block.reset with dmaSource := 0x123456 }) 0x34 = true ∧
    returns (.rdDmasrcH host) (st { Block.reset with dmaSource := 0x123456 }) 0x12 = true := by decide

/-- T10. -/
theorem test_read_dma_length :
    returns (.rdDmalenL host) (st { Block.reset with dmaLength := 0x0200 }) 0x00 = true ∧
    returns (.rdDmalenH host) (st { Block.reset with dmaLength := 0x0200 }) 0x02 = true := by decide

/-- T11, R136, R137. -/
theorem test_read_dma_target :
    returns (.rdDmatgtL host) (st { Block.reset with dmaTarget := 0x006000 }) 0x00 = true ∧
    returns (.rdDmatgtM host) (st { Block.reset with dmaTarget := 0x006000 }) 0x60 = true ∧
    returns (.rdDmatgtH host) (st { Block.reset with dmaTarget := 0x006000 }) 0x00 = true := by decide

/-- R140 to R142. -/
theorem test_read_program_offset :
    returns (.rdProgofsL host) (st { Block.reset with programOffset := 0x0A8000 }) 0x00 = true ∧
    returns (.rdProgofsM host) (st { Block.reset with programOffset := 0x0A8000 }) 0x80 = true ∧
    returns (.rdProgofsH host) (st { Block.reset with programOffset := 0x0A8000 }) 0x0A = true := by decide

/-- T12, T13: lock bit 1 is bit 1 of the byte. -/
theorem test_read_preload_and_locks :
    returns (.rdCpreload host) (st { Block.reset with cachePreload := true }) 0x01 = true ∧
    returns (.rdCachelock host) (st { Block.reset with bank1 := { BankState.reset with lock := true } }) 0x02 = true := by decide

/-- R144, T14, R146. -/
theorem test_read_page_and_pc :
    returns (.rdPageL host) (st { Block.reset with pageNumber := 0x0012 }) 0x12 = true ∧
    returns (.rdPageH host) (st { Block.reset with pageNumber := 0x7F00 }) 0x7F = true ∧
    returns (.rdPc host) (st { Block.reset with programCounter := 0x34, pcFull := 0x56 }) 0x34 = true := by decide

/-- T15, T41: the two speed fields have their places in the byte. -/
theorem test_read_speed :
    returns (.rdSpeed host) (st { Block.reset with romSpeed := 7, ramSpeed := 7 }) 0x77 = true ∧
    returns (.rdSpeed host) (st { Block.reset with romSpeed := 3, ramSpeed := 5 }) 0x35 = true := by decide

/-- T16: each flag is read at its own offset. -/
theorem test_read_flags :
    returns (.rdR1F51 host) (st { Block.reset with r1f51 := true }) 0x01 = true ∧
    returns (.rdR1F52 host) (st { Block.reset with r1f51 := true }) 0x00 = true ∧
    returns (.rdR1F52 host) (st { Block.reset with r1f52 := true }) 0x01 = true := by decide

/-- T18 to T20, and R150's Running example. -/
theorem test_read_status :
    returns (.rdStatus1F58 host) (st { running with suspend := true }) 0xC1 = true ∧
    returns (.rdStatus1F5F host) (st { Block.reset with cacheLoading := true }) 0x82 = true ∧
    returns (.rdStatus1F53 host) (st { Block.reset with dmaActive := true, suspend := true }) 0x83 = true ∧
    returns (.rdStatus1F54 host) (st running) 0xC0 = true := by decide

/-- R150: the other aliases, with a DMA pending. -/
theorem test_read_status_aliases :
    ([.rdStatus1F55 host, .rdStatus1F56 host, .rdStatus1F57 host, .rdStatus1F59 host, .rdStatus1F5A host, .rdStatus1F5B host,
      .rdStatus1F5C host, .rdStatus1F5D host, .rdStatus1F5E host].all
        fun i => returns i (st { Block.reset with dmaPending := true }) 0x82) = true := by decide

/-- R151, T21. -/
theorem test_read_vector :
    returns (.rdVector host 0x1C) (st { Block.reset with vector := (Vector.replicate 32 0).set 0x1C 0x34 }) 0x34 = true ∧
    returns (.rdVector host 0x1F) (st { Block.reset with vector := (Vector.replicate 32 0).set 0x1C 0x34 }) 0x00 = true := by decide

/-- T22: 0x1FAD to 0x1FAF and 0x1FEF. -/
theorem test_read_gpr_high :
    returns (.rdGprA1 host 0xD) (st { Block.reset with gpr := (Vector.replicate 16 0).set 15 0xABCDEF }) 0xEF = true ∧
    returns (.rdGprA1 host 0xE) (st { Block.reset with gpr := (Vector.replicate 16 0).set 15 0xABCDEF }) 0xCD = true ∧
    returns (.rdGprA1 host 0xF) (st { Block.reset with gpr := (Vector.replicate 16 0).set 15 0xABCDEF }) 0xAB = true ∧
    returns (.rdGprB1 host 0xF) (st { Block.reset with gpr := (Vector.replicate 16 0).set 15 0xABCDEF }) 0xAB = true := by decide

/-- R153's example, and the same byte through window A. -/
theorem test_read_gpr_low :
    returns (.rdGprB0 host 4) (st { Block.reset with gpr := (Vector.replicate 16 0).set 1 0x000100 }) 0x01 = true ∧
    returns (.rdGprA0 host 4) (st { Block.reset with gpr := (Vector.replicate 16 0).set 1 0x000100 }) 0x01 = true := by decide

/-- T5, T23. -/
theorem test_read_unmapped :
    ([.rdUnmapped1C00 host 0, .rdUnmapped1E00 host 0, .rdUnmapped1F00 host 0x3F, .rdUnmapped1FB0 host 0, .rdUnmapped1FF0 host 0].all
      fun i => returns i (st { running with gpr := Vector.replicate 16 0xFFFFFF, vector := Vector.replicate 32 0xFF }) 0) = true := by
  decide

/-! ## Register writes -/

/-- R163, T30, R165. -/
theorem test_write_dma_source :
    gives (exec (.wrDmasrcL host 0xAA) (st { Block.reset with dmaSource := 0x123456 })) (fun t => t.blk.dmaSource == 0x1234AA) = true ∧
    gives (exec (.wrDmasrcM host 0xAA) (st { Block.reset with dmaSource := 0x123456 })) (fun t => t.blk.dmaSource == 0x12AA56) = true ∧
    gives (exec (.wrDmasrcH host 0xAA) (st { Block.reset with dmaSource := 0x123456 }))
      (fun t => t.blk.dmaSource == 0xAA3456 && !t.blk.dmaPending) = true := by decide

/-- R166, R167. -/
theorem test_write_dma_length :
    gives (exec (.wrDmalenL host 0xFF) (st { Block.reset with dmaLength := 0x0102 })) (fun t => t.blk.dmaLength == 0x01FF) = true ∧
    gives (exec (.wrDmalenH host 0x00) (st { Block.reset with dmaLength := 0x0102 })) (fun t => t.blk.dmaLength == 0x0002) = true := by
  decide

/-- R168, R169: no trigger even while Halted. -/
theorem test_write_dma_target_low_and_mid :
    gives (exec (.wrDmatgtL host 0x10) State.reset) (fun t => t.blk.dmaTarget == 0x000010 && !t.blk.dmaPending) = true ∧
    gives (exec (.wrDmatgtM host 0x60) (st { Block.reset with dmaTarget := 0x000010 }))
      (fun t => t.blk.dmaTarget == 0x006010 && !t.blk.dmaPending) = true := by decide

/-- T32: the trigger while Halted latches the programmed values. -/
theorem test_dma_trigger_halted :
    gives (exec (.wrDmatgtH host 0x00) (st { Block.reset with dmaSource := 0x0A8000, dmaLength := 0x0010, dmaTarget := 0xFF6000 }))
      (fun t => t.blk.dmaPending && t.blk.dmaLatch == ⟨0x0A8000, 0x0010, 0x006000⟩ && t.blk.status == 0x82) = true := by decide

/-- T33: only a store while Running. -/
theorem test_dma_trigger_running :
    gives (exec (.wrDmatgtH host 0x7E) (st running)) (fun t => t.blk.dmaTarget == 0x7E0000 && !t.blk.dmaPending) = true := by decide

/-- T35: the preload of bank 1 while Halted. -/
theorem test_preload_halted :
    gives (exec (.wrCpreload host 0x01) (st { Block.reset with
        programOffset := 0x0A8000, pageNumber := 1, bank1 := { BankState.reset with valid := true } }))
      (fun t => t.blk.cacheLoading && !t.blk.bank1.valid && t.blk.cload == ⟨.b1, 1, 0x0A8200, 0, false⟩) = true := by decide

/-- T36 while Running, and T70: the source address wraps. -/
theorem test_preload_running_and_wrap :
    gives (exec (.wrCpreload host 0x01) (st running)) (fun t => t.blk.cachePreload && !t.blk.cacheLoading) = true ∧
    gives (exec (.wrCpreload host 0x00) (st { Block.reset with programOffset := 0xFFFF00, pageNumber := 1 }))
      (fun t => t.blk.cload.addr == 0x000100 && t.blk.cload.bank == .b0) = true := by decide

/-- R172 to R174. -/
theorem test_write_program_offset :
    gives (exec (.wrProgofsL host 0x11) (st { Block.reset with programOffset := 0x0A8000 }))
      (fun t => t.blk.programOffset == 0x0A8011) = true ∧
    gives (exec (.wrProgofsM host 0x80) State.reset) (fun t => t.blk.programOffset == 0x008000) = true ∧
    gives (exec (.wrProgofsH host 0x0A) (st { Block.reset with programOffset := 0x008000 }))
      (fun t => t.blk.programOffset == 0x0A8000) = true := by decide

/-- T37 while Halted, T38 while Running. -/
theorem test_write_locks :
    gives (exec (.wrCachelock host 0xFE) State.reset) (fun t => !t.blk.bank0.lock && t.blk.bank1.lock) = true ∧
    gives (exec (.wrCachelock host 0x00) (st { running with bank0 := { BankState.reset with lock := true } }))
      (fun t => t.blk.bank0.lock) = true := by decide

/-- R176, and T31: bit 7 is dropped. -/
theorem test_write_page :
    gives (exec (.wrPageL host 0x34) State.reset) (fun t => t.blk.pageNumber == 0x0034 && t.blk.halt) = true ∧
    gives (exec (.wrPageH host 0x92) (st { Block.reset with pageNumber := 0x0034 })) (fun t => t.blk.pageNumber == 0x1234) = true := by
  decide

/-- T39: the run start, with the entry address at its maximum; the active bank goes back to 0. -/
theorem test_run_start :
    gives (exec (.wrPc host 0xFF) (st { Block.reset with pageNumber := 0x7FFF, cachePage := .b1 }))
      (fun t => t.blk.pcFull == 0x7FFFFF && !t.blk.halt && t.blk.cachePage == .b0) = true := by decide

/-- T40: while Running the byte is stored and nothing else happens. -/
theorem test_pc_write_running :
    gives (exec (.wrPc host 0x00) (st { running with pcFull := 0x001234, programCounter := 0x34, cachePage := .b1 }))
      (fun t => t.blk.programCounter == 0 && t.blk.pcFull == 0x001234 && !t.blk.halt && t.blk.cachePage == .b1) = true := by decide

/-- T41. -/
theorem test_write_speed :
    gives (exec (.wrSpeed host 0x35) State.reset) (fun t => t.blk.romSpeed == 3 && t.blk.ramSpeed == 5) = true := by decide

/-- R180, R181, and R149's example: bit 0 only. -/
theorem test_write_flags :
    gives (exec (.wrR1F51 host 0x03) State.reset) (fun t => t.blk.r1f51 && !t.blk.r1f52) = true ∧
    gives (exec (.wrR1F52 host 0x03) State.reset) (fun t => t.blk.r1f52 && !t.blk.r1f51) = true ∧
    gives (exec (.wrR1F52 host 0xFE) State.reset) (fun t => !t.blk.r1f52) = true := by decide

/-- T42, T43: a halt request leaves a transfer active. -/
theorem test_write_halt :
    gives (exec (.wrHalt host 0xFF) State.reset) (fun t => t.blk == Block.reset) = true ∧
    gives (exec (.wrHalt host 0x00) (st { running with dmaActive := true })) (fun t => t.blk.halt && t.blk.dmaActive) = true := by decide

/-- T44: the eight suspend addresses. -/
theorem test_write_suspend :
    ([(.wrSuspend0 host 0, 0), (.wrSuspend1 host 0, 32), (.wrSuspend2 host 0, 64), (.wrSuspend3 host 0, 96), (.wrSuspend4 host 0, 128),
      (.wrSuspend5 host 0, 160), (.wrSuspend6 host 0, 192), (.wrSuspend7 host 0, 224)].all
        fun p : Instr × BitVec 8 => gives (exec p.1 (st running)) fun t => t.blk.suspend && t.blk.suspendCycles == p.2) = true := by
  decide

/-- T45, R192: the flag is cleared and the count stays. -/
theorem test_write_unsuspend :
    gives (exec (.wrUnsuspend host 0) (st { Block.reset with suspend := true, suspendCycles := 64 }))
      (fun t => !t.blk.suspend && t.blk.suspendCycles == 64) = true := by decide

/-- T46, T49, E1: no effect. -/
theorem test_write_no_effect :
    ([.wrNop1F54 host 0xFF, .wrNop1F5E host 0xFF, .wrNop1F5F host 0xFF, .wrUnmapped1C00 host 0 0xFF, .wrUnmapped1E00 host 0 0xFF,
      .wrUnmapped1F00 host 0 0xFF, .wrUnmapped1FB0 host 0 0x12, .wrUnmapped1FF0 host 0 0xFF].all
        fun i => gives (exec i State.reset) fun t => t.blk == Block.reset && t.trace == [.sync .host]) = true := by decide

/-- T47. -/
theorem test_write_vector :
    gives (exec (.wrVector host 0x1C 0x34) State.reset)
      (fun t => t.blk.vector[0x1C] == 0x34 && t.blk.vector[0x1D] == 0) = true := by decide

/-- E7: 0x1F83 is the low slot of register 1, 0x1FEF the high slot of register 15. -/
theorem test_write_gpr :
    gives (exec (.wrGprA0 host 3 0x56) State.reset) (fun t => t.blk.gpr[1] == 0x000056 && t.blk.gpr[0] == 0) = true ∧
    gives (exec (.wrGprB1 host 0xF 0x9A) State.reset) (fun t => t.blk.gpr[15] == 0x9A0000) = true := by decide

/-- T48: 0x1FC4 is the middle slot of register 1; and 0x1FAE is the middle slot of register 15. -/
theorem test_write_gpr_middle_slot :
    gives (exec (.wrGprB0 host 4 0x77) State.reset) (fun t => t.blk.gpr[1] == 0x007700) = true ∧
    gives (exec (.wrGprA1 host 0xE 0xCD) (st { Block.reset with gpr := Vector.replicate 16 0x110011 }))
      (fun t => t.blk.gpr[15] == 0x11CD11) = true := by decide

/-! ## The Controller's steps -/

/-- A transfer in progress. -/
def dma (src tgt : Addr) (n : BitVec 17) : Block := { Block.reset with dmaActive := true, dmaCur := ⟨src, tgt, n⟩ }

/-- A load in progress. -/
def loading (c : Cload) : Block := { Block.reset with cacheLoading := true, cload := c }

/-- T60. -/
theorem test_dma_start :
    gives (exec .dmaStart (st { Block.reset with dmaPending := true, dmaLatch := ⟨0x0A8000, 0x0010, 0x006000⟩ }))
      (fun t => t.blk.dmaActive && !t.blk.dmaPending && t.blk.dmaCur == ⟨0x0A8000, 0x006000, 16⟩) = true := by decide

/-- T61: not while Running; T80: not before a started load has finished. -/
theorem test_dma_start_not_enabled :
    faults (exec .dmaStart (st { running with dmaPending := true })) (.controllerStepNotEnabled .dmaStart) = true ∧
    faults (exec .dmaStart (st { Block.reset with
        dmaPending := true, cacheLoading := true, cload := ⟨.b0, 0, 0, 3, false⟩ }))
      (.controllerStepNotEnabled .dmaStart) = true := by decide

/-- T62, with the cartridge's answer given. -/
theorem test_dma_byte_from_cartridge :
    gives (exec .dmaByte { st (dma 0x0A8000 0x006000 16) with cartIn := [0x11] })
      (fun t => t.blk.scratch == [(0, 0x11)] && t.blk.dmaCur == ⟨0x0A8001, 0x006001, 15⟩ && t.cartIn == []) = true := by decide

/-- T65's first byte; T66 is refused. -/
theorem test_dma_byte_scratch_and_control_space :
    gives (exec .dmaByte (st { dma 0x006000 0x006001 3 with scratch := [(0, 0xA5)] }))
      (fun t => t.blk.scratch == [(0, 0xA5), (1, 0xA5)]) = true ∧
    refuses (exec .dmaByte { st (dma 0x0A8000 0x007F40 1) with cartIn := [1] }) .dmaControlSpace = true := by decide

/-- T63: the source wraps; T64: a byte past the end of scratch memory is dropped. -/
theorem test_dma_byte_wrap_and_drop :
    gives (exec .dmaByte { st (dma 0xFFFFFF 0x006000 2) with cartIn := [1] })
      (fun t => t.blk.dmaCur == ⟨0x000000, 0x006001, 1⟩) = true ∧
    gives (exec .dmaByte { st (dma 0x0A8001 0x006C00 1) with cartIn := [1] })
      (fun t => t.blk.scratch == [] && t.blk.dmaCur.remaining == 0) = true := by decide

/-- T67; and not before the last byte. -/
theorem test_dma_done :
    gives (exec .dmaDone (st (dma 0x0A8010 0x006010 0))) (fun t => !t.blk.dmaActive && t.blk.status == 0x02) = true ∧
    faults (exec .dmaDone (st (dma 0 0 1))) (.controllerStepNotEnabled .dmaDone) = true := by decide

/-- T71. -/
theorem test_cload_byte :
    gives (exec .cloadByte { st (loading ⟨.b1, 1, 0x0A8200, 0, false⟩) with cartIn := [0x4C] })
      (fun t => t.blk.bank1.mem == [(0, 0x4C)] && t.blk.bank0.mem == [] && t.blk.cload == ⟨.b1, 1, 0x0A8201, 1, false⟩) = true := by decide

/-- T79: a DMA start beats an unstarted load. -/
theorem test_cload_byte_waits_for_dma :
    faults (exec .cloadByte (st { loading ⟨.b1, 1, 0x0A8200, 0, false⟩ with dmaPending := true }))
      (.controllerStepNotEnabled .cloadByte) = true := by decide

/-- T72: a preload leaves the active bank; T73: a fill makes its bank active. -/
theorem test_cload_done :
    gives (exec .cloadDone (st (loading ⟨.b1, 1, 0, 512, false⟩)))
      (fun t => !t.blk.cacheLoading && t.blk.bank1.valid && t.blk.bank1.page == 1 && t.blk.cachePage == .b0) = true ∧
    gives (exec .cloadDone (st (loading ⟨.b1, 1, 0, 512, true⟩))) (fun t => t.blk.cachePage == .b1) = true := by decide

/-- T97, T98. -/
theorem test_susp_expire :
    gives (exec .suspExpire (st { Block.reset with suspend := true, suspendCycles := 64 }))
      (fun t => !t.blk.suspend && t.blk.suspendCycles == 0) = true ∧
    faults (exec .suspExpire (st { Block.reset with suspend := true })) (.controllerStepNotEnabled .suspExpire) = true := by decide

/-! ## The Engine's events -/

/-- T96. -/
theorem test_eng_halt : gives (exec .engHalt (st running)) (fun t => t.blk.halt && t.blk.status == 0x02) = true := by decide

/-- T91, T92. -/
theorem test_eng_not_granted :
    faults (exec .engHalt (st { running with suspend := true })) .engineNotGranted = true ∧
    faults (exec (.engGpr 0 0) (st { running with cacheLoading := true })) .engineNotGranted = true := by decide

/-- T93. -/
theorem test_eng_gpr :
    gives (exec (.engGpr 2 0x000105) (st running)) (fun t => t.blk.gpr[2] == 0x000105 && t.blk.gpr[1] == 0) = true := by decide

/-- T94. -/
theorem test_eng_fill :
    gives (exec (.engFill 3) (st { running with programOffset := 0x0A8000 }))
      (fun t => t.blk.cacheLoading && t.blk.cload == ⟨.b1, 3, 0x0A8600, 0, true⟩) = true := by decide

/-- T77: the active bank where the other is locked; T78: stuck where both are. -/
theorem test_eng_fill_locks :
    gives (exec (.engFill 3) (st { running with bank1 := { BankState.reset with lock := true } }))
      (fun t => t.blk.cload.bank == .b0) = true ∧
    faults (exec (.engFill 5) (st { running with
        bank0 := { BankState.reset with lock := true }, bank1 := { BankState.reset with lock := true } })) (.lockedMissStuck 5) = true := by
  decide

/-- A Running, granted chip with both banks locked, whose Engine a locked miss has left stuck. -/
def stuckEngine : State := { st { running with
    bank0 := { BankState.reset with lock := true }, bank1 := { BankState.reset with lock := true } } with engineStuck := true }

/-- R210: a step that takes a locked miss leaves the Engine stuck, and then ENG-HALT is not taken. -/
theorem test_locked_miss_sticks :
    gives (step { stuckEngine with engineStuck := false, inbox := [.txn ⟨.event, [2, 5, 0]⟩] })
      (fun t => t == { stuckEngine with trace := [.stuck (.lockedMissStuck 5)] }) = true ∧
    gives (step { stuckEngine with inbox := [.txn ⟨.event, [0]⟩] })
      (fun t => t == { stuckEngine with trace := [.stuck .engineStuck] }) = true := by decide

/-- R210, R175: a halt request and a run start leave it stuck; a lock write while Running too; the lock write while Halted frees it. -/
theorem test_unlock_frees_engine :
    gives (execAll [.wrHalt host 0, .wrPc host 0] stuckEngine) (fun t => t.blk.engineGrant && t.engineStuck) = true ∧
    gives (exec (.wrCachelock host 0) stuckEngine) (fun t => t.engineStuck) = true ∧
    gives (execAll [.wrHalt host 0, .wrCachelock host 3] stuckEngine) (fun t => t.engineStuck) = true ∧
    gives (execAll [.wrHalt host 0, .wrCachelock host 2, .wrPc host 0, .engFill 5] stuckEngine)
      (fun t => !t.engineStuck && t.blk.cacheLoading && t.blk.cload.bank == .b0) = true := by decide

/-- T95. -/
theorem test_eng_page :
    gives (exec (.engPage .b1) (st { running with bank1 := { BankState.reset with valid := true, page := 7 } }))
      (fun t => t.blk.cachePage == .b1) = true ∧
    faults (exec (.engPage .b1) (st running)) (.engineBankInvalid .b1) = true := by decide

/-- R248's example; and a read of the same byte. -/
theorem test_eng_bus :
    gives (exec (.engBus (.write 0x006010 0xAA)) (st running)) (fun t => t.blk.scratch == [(0x010, 0xAA)] && t.trace == []) = true ∧
    gives (exec (.engBus (.read 0x006010)) (st { running with scratch := [(0x010, 0xAA)] }))
      (fun t => t.trace == [.engineData 0xAA]) = true := by decide

/-- R248: control space is refused; the cartridge sees the other writes. -/
theorem test_eng_bus_control_space :
    refuses (exec (.engBus (.read 0x007F53)) (st running)) .dmaControlSpace = true ∧
    gives (exec (.engBus (.write 0x706000 0x55)) (st running)) (fun t => t.trace == [.cartWrite 0x706000 0x55]) = true := by decide

/-! ## The ROM port and the speed query -/

/-- The chip Running, with vector byte 0x1C at 0x34 and byte 0 at 0x5A. -/
def withVectors : Block := { running with vector := ((Vector.replicate 32 0).set 0x1C 0x34).set 0 0x5A }

/-- T100, T106: the cartridge's byte. -/
theorem test_rom_pass_through :
    gives (exec (.romRead .host 0x00FFFC) { State.reset with cartIn := [0xEE] })
      (fun t => t.trace == [.sync .host, .cartRead 0x00FFFC 0xEE, .readData 0xEE]) = true ∧
    gives (exec (.romRead .chip 0x00FFFC) { st withVectors with cartIn := [0xEE] })
      (fun t => t.trace == [.cartRead 0x00FFFC 0xEE, .readData 0xEE]) = true := by decide

/-- T101, T102, T103, T104, T105. -/
theorem test_rom_blocked :
    returns (.romRead .host 0x00FFFC) (st withVectors) 0x34 = true ∧ returns (.romRead .host 0x008000) (st withVectors) 0 = true ∧
    returns (.romRead .host 0x008000) (st { Block.reset with dmaPending := true }) 0 = true ∧
    returns (.romRead .host 0x80FFE0) (st withVectors) 0x5A = true ∧ returns (.romRead .host 0x40FFE0) (st withVectors) 0 = true := by
  decide

/-- T107, T108: no Sync and no change, whatever the open predicates are. -/
theorem test_speed_query (a : Addr) :
    exec (.speedQuery a) State.reset = .next (State.reset.emit (.speedClass (Block.reset.speedClass a))) := rfl

/-! ## Steps -/

/-- The scheduled transaction runs; a stuck entry is passed over with a mark; bytes that are no transaction are refused. -/
theorem test_step :
    gives (step { State.reset with inbox := [.txn ⟨.window, [0x50, 0x3F, 0x00, 0x35]⟩, .txn ⟨.step, [0]⟩] })
      (fun t => t.blk.romSpeed == 3 && t.inbox == [.txn ⟨.step, [0]⟩]) = true ∧
    gives (step { State.reset with inbox := [.txn ⟨.step, [0]⟩] })
      (fun t => t.blk == Block.reset && t.trace == [.stuck (.controllerStepNotEnabled .dmaStart)]) = true ∧
    refuses (step { State.reset with inbox := [.txn ⟨.step, [9]⟩] }) (.malformed .unknownKind) = true := by decide

/-- A table word placed by `withFetchWord` is the next transaction: key 0x3F50, W SPEED, and kind 5. -/
theorem test_fetch_word :
    decodeTableWord 16 0x3F50 = some (.wrSpeed host 0) ∧ decodeTableWord 8 5 = some .suspExpire ∧
    decodeTableWord 24 0x00FFFC = some (.romRead .host 0x00FFFC) ∧
    gives (step (State.reset.withFetchWord 16 0x3F53)) (fun t => t.blk.halt && t.trace == [.sync .host]) = true := by decide

/-! ## Witnesses: for every statement with hypotheses, states and operands that meet all of them together

The statements through `ReadAt` and `WriteAt` have the one hypothesis that the access is in the window: `witness_access`.
`SpeedQuery`'s clauses have hypotheses about two opaque parameters: `witness_SpeedQuery` shows that one of them always applies. The
clause of `RunStateTransitions` and of `SystemResetStep` in which a system reset takes place rests on the opaque
`Config.systemResetReinit` in the same way. -/

/-- Every bank of the window's four corners: the hypothesis of the window statements. -/
theorem witness_access :
    host.wellFormed = true ∧ Access.wellFormed ⟨true, 0x3F⟩ = true ∧ Access.wellFormed ⟨false, 0x80⟩ = true ∧
    Access.wellFormed ⟨true, 0xBF⟩ = true := by decide

theorem witness_EncodeThenDecode :
    (Instr.wrGprB1 ⟨true, 0xBF⟩ 0xF 0x9A).wellFormed = true ∧ (Instr.engFill 0x7FFF).wellFormed = true := by decide

theorem witness_DecodeThenEncode :
    decode ⟨.window, [0xEF, 0x7F, 0xBF, 0x9A]⟩ = .ok (.wrGprB1 ⟨true, 0xBF⟩ 0xF 0x9A) ∧
    decode ⟨.event, [2, 0xFF, 0x7F]⟩ = .ok (.engFill 0x7FFF) := ⟨rfl, rfl⟩

theorem witness_OneRowPerKey : Access.wellFormed ⟨true, 0xBF⟩ = true := by decide

/-- A state with one scheduled transaction. -/
def sched (x : Txn) (b : Block) : State := { st b with inbox := [.txn x] }

/-- An instruction that completes, one that is stuck, a locked miss, one that is refused, bytes that are none, and an empty schedule. -/
theorem witness_StepRunsDecodedInstruction :
    (decode ⟨.window, [0x53, 0x3F, 0x00, 0x00]⟩ = .ok (.wrHalt host 0) ∧ ∃ t, exec (.wrHalt host 0) State.reset = .next t) ∧
    (decode ⟨.step, [0]⟩ = .ok .dmaStart ∧ exec .dmaStart State.reset = .fault (.controllerStepNotEnabled .dmaStart)) ∧
    (decode ⟨.event, [2, 5, 0]⟩ = .ok (.engFill 5) ∧
      exec (.engFill 5) { stuckEngine with engineStuck := false } = .fault (.lockedMissStuck 5)) ∧
    (decode ⟨.step, [1]⟩ = .ok .dmaByte ∧ exec .dmaByte (st (dma 0x007F40 0 1)) = .refused .dmaControlSpace) ∧
    decode ⟨.step, [9]⟩ = .error .unknownKind ∧ State.reset.inbox = [] :=
  ⟨⟨rfl, _, rfl⟩, ⟨rfl, rfl⟩, ⟨rfl, rfl⟩, ⟨rfl, rfl⟩, rfl, rfl⟩

/-- A draw in which no field is 0. -/
def draw : ResetDraw :=
  { dmaSource := 1, dmaLength := 2, dmaTarget := 3, programOffset := 4, pageNumber := 5, programCounter := 6,
    vector := Vector.replicate 32 7, gpr := Vector.replicate 16 8, scratch := [(3071, 9)], pcFull := 10,
    dmaLatch := ⟨11, 12, 13⟩, dmaCur := ⟨14, 15, 16⟩, cload := ⟨.b1, 17, 18, 19, true⟩, cacheMem0 := [(0, 20)],
    cacheMem1 := [(511, 21)], tagPage0 := 22, tagPage1 := 23 }

theorem witness_SystemResetStep : ({ State.reset with inbox := [.systemReset draw] } : State).inbox = [.systemReset draw] := rfl

/-- The initial state of that draw. -/
theorem witness_InitialisationReachesEveryDraw :
    (resetDraw draw).Initial ∧ Memory.wf 3072 (resetDraw draw).scratch ∧ Memory.wf 512 (resetDraw draw).bank0.mem ∧
    Memory.wf 512 (resetDraw draw).bank1.mem :=
  ⟨⟨rfl, ⟨rfl, rfl⟩, rfl, ⟨rfl, rfl⟩, rfl, rfl, ⟨rfl, rfl⟩, ⟨rfl, rfl⟩, ⟨rfl, rfl⟩, ⟨rfl, rfl⟩⟩, by decide, by decide, by decide⟩

/-- The first and the last alias. -/
theorem witness_StatusAfterInitialisation :
    (host.wellFormed = true ∧ 0x1F53 ≤ 0x1F53 ∧ 0x1F53 ≤ 0x1F5F) ∧ (host.wellFormed = true ∧ 0x1F53 ≤ 0x1F5F ∧ 0x1F5F ≤ 0x1F5F) := by
  decide

theorem witness_WindowReadsAreFunctionsOfBlock : host.wellFormed = true ∧ State.reset.blk = Block.reset := by decide

/-- The first and the last address of the window. -/
theorem witness_DebugAccessesActTheSame :
    Config.inChipWindow (windowAddr 0x00 0) = true ∧ Config.inChipWindow (windowAddr 0xBF 0x1FFF) = true := by decide

/-- A window read, a debug read and a Controller step that complete. -/
theorem witness_SyncExactlyOnce :
    (∃ t, exec (.rdPc host) State.reset = .next t) ∧ (∃ t, exec (.rdPc unsynced) State.reset = .next t) ∧
    (∃ t, exec .dmaDone (st (dma 0 0 0)) = .next t) := ⟨⟨_, rfl⟩, ⟨_, rfl⟩, ⟨_, rfl⟩⟩

theorem witness_ScratchWrites : Memory.wf 3072 [(0, 1), (3071, 0xFF)] := by decide

/-- The first and the last index. -/
theorem witness_ScratchWriteSeenByBothAliases :
    (Memory.wf 3072 [(0, 1)] ∧ 0 < 3072 ∧ host.wellFormed = true ∧ unsynced.wellFormed = true) ∧
    (Memory.wf 3072 [(0, 1)] ∧ 3071 < 3072 ∧ host.wellFormed = true ∧ unsynced.wellFormed = true) := by decide

/-- Either bank. -/
theorem witness_PreloadTrigger :
    (Bank.b0 = if (0xFE : Byte).toNat % 2 = 1 then Bank.b1 else Bank.b0) ∧
    (Bank.b1 = if (0xFF : Byte).toNat % 2 = 1 then Bank.b1 else Bank.b0) := by decide

/-- Of the six orders the given one and another, of the registers the first and the last, and a Halted chip written in order. -/
theorem witness_SlotOrderIndependence :
    [Instr.wrDmasrcM host 2, .wrDmasrcL host 1, .wrDmasrcH host 3].Perm [.wrDmasrcL host 1, .wrDmasrcM host 2, .wrDmasrcH host 3] ∧
    ([Instr.wrDmatgtL host 1, .wrDmatgtM host 2, .wrDmatgtH host 3].Perm [.wrDmatgtL host 1, .wrDmatgtM host 2, .wrDmatgtH host 3] ∧
      State.reset.blk.halt = true ∧
      [Instr.wrDmatgtL host 1, .wrDmatgtM host 2, .wrDmatgtH host 3].getLast? = some (.wrDmatgtH host 3)) ∧
    0 < 16 ∧ 15 < 16 ∧ [Instr.wrDmalenH host 2, .wrDmalenL host 1].Perm [.wrDmalenL host 1, .wrDmalenH host 2] ∧
    [Instr.wrPageH host 2, .wrPageL host 1].Perm [.wrPageL host 1, .wrPageH host 2] :=
  ⟨.swap .., ⟨.refl _, rfl, rfl⟩, by decide, by decide, .swap .., .swap ..⟩

theorem witness_GatedWritesWhileRunning : host.wellFormed = true ∧ (st running).blk.halt = false := by decide

/-- A window transaction, a ROM-port read and a speed query. -/
theorem witness_HostTransactionsComplete :
    (decode ⟨.window, [0x40, 0x1F, 0x00]⟩ = .ok (.rdDmasrcL host) ∧ HostTransaction (.rdDmasrcL host)) ∧
    (decode ⟨.rom, [0, 0, 0, 1]⟩ = .ok (.romRead .chip 0) ∧ HostTransaction (.romRead .chip 0)) ∧
    (decode ⟨.speed, [0, 0, 0]⟩ = .ok (.speedQuery 0) ∧ HostTransaction (.speedQuery 0)) :=
  ⟨⟨rfl, .inl ⟨_, rfl⟩⟩, ⟨rfl, .inr (.inl ⟨_, _, rfl⟩)⟩, ⟨rfl, .inr (.inr ⟨_, rfl⟩)⟩⟩

/-- A quiet chip, a suspended one and a Running one; and addresses on both sides of the vector window's edges. -/
theorem witness_RomReads :
    Block.reset.LetsThrough ∧ ¬ Block.LetsThrough { Block.reset with suspend := true } ∧ ¬ running.LetsThrough ∧
    (0x00FFE0 / 0x400000 % 2 = 0 ∧ 0xFFE0 ≤ 0x00FFE0 % 0x10000) ∧ (0xBFFFFF / 0x400000 % 2 = 0 ∧ 0xFFE0 ≤ 0xBFFFFF % 0x10000) ∧
    ¬ (0x00FFDF / 0x400000 % 2 = 0 ∧ 0xFFE0 ≤ 0x00FFDF % 0x10000) ∧ ¬ (0x40FFE0 / 0x400000 % 2 = 0 ∧ 0xFFE0 ≤ 0x40FFE0 % 0x10000) := by
  unfold Block.LetsThrough; decide

theorem witness_SpeedQuery (a : Addr) :
    Config.isCartRAM a = true ∨ (Config.isCartRAM a = false ∧ Config.isCartROM a = true) ∨
    (Config.isCartRAM a = false ∧ Config.isCartROM a = false) := by
  cases Config.isCartRAM a <;> cases Config.isCartROM a <;> simp

/-- A transfer of the latch is armed. -/
def armed (l : DmaLatch) : Block := { Block.reset with dmaPending := true, dmaLatch := l }

/-- May start, also with an unstarted load; may not while Running or behind a started load. -/
theorem witness_DmaStart :
    (armed ⟨0, 0, 0⟩).DmaMayStart ∧ Block.DmaMayStart { armed ⟨1, 65535, 2⟩ with cacheLoading := true } ∧
    ¬ Block.DmaMayStart { armed ⟨0, 0, 0⟩ with halt := false } ∧
    ¬ Block.DmaMayStart { armed ⟨0, 0, 0⟩ with cacheLoading := true, cload := ⟨.b0, 0, 0, 1, false⟩ } := by
  unfold Block.DmaMayStart; decide

/-- The last scratch byte, an index past the end, and the cartridge, none of them control space. -/
theorem witness_DmaByte :
    (Memory.wf 3072 (dma 0x006BFF 0x006C00 1).scratch ∧ (dma 0x006BFF 0x006C00 1).dmaActive = true ∧
      (dma 0x006BFF 0x006C00 1).dmaCur.remaining.toNat ≠ 0 ∧ ¬ InControlSpace 0x006BFF ∧ ¬ InControlSpace 0x006C00) ∧
    (Memory.wf 3072 (dma 0xFFFFFF 0x007BFF 65535).scratch ∧ (dma 0xFFFFFF 0x007BFF 65535).dmaActive = true ∧
      (dma 0xFFFFFF 0x007BFF 65535).dmaCur.remaining.toNat ≠ 0 ∧ ¬ InControlSpace 0xFFFFFF ∧ ¬ InControlSpace 0x007BFF) := by
  unfold InControlSpace InWindow; decide

/-- The first and the last address of control space, for each of the three steps. -/
theorem witness_ControlSpaceIsRefused :
    ((dma 0x007C00 0 1).dmaActive = true ∧ (dma 0x007C00 0 1).dmaCur.remaining.toNat ≠ 0 ∧ InControlSpace 0x007C00) ∧
    ((dma 0 0xBF7FFF 1).dmaActive = true ∧ (dma 0 0xBF7FFF 1).dmaCur.remaining.toNat ≠ 0 ∧ InControlSpace 0xBF7FFF) ∧
    ((loading ⟨.b0, 0, 0x007C00, 0, false⟩).LoadMayContinue ∧ InControlSpace 0x007C00) ∧
    ((st running).EngineMayStep ∧ InControlSpace 0xBF7FFF) := by
  unfold Block.LoadMayContinue State.EngineMayStep Block.Granted InControlSpace InWindow; decide

theorem witness_DmaDone :
    ((dma 0 0 0).dmaActive = true ∧ (dma 0 0 0).dmaCur.remaining.toNat = 0) ∧
    ¬ ((dma 0 0 1).dmaActive = true ∧ (dma 0 0 1).dmaCur.remaining.toNat = 0) := by decide

/-- The first and the last byte of a load. -/
theorem witness_CloadByte :
    (Memory.wf 512 (Block.bank (loading ⟨.b0, 0, 0x0A8000, 0, false⟩) .b0).mem ∧
      (loading ⟨.b0, 0, 0x0A8000, 0, false⟩).LoadMayContinue ∧ ¬ InControlSpace 0x0A8000) ∧
    (Memory.wf 512 (Block.bank (loading ⟨.b1, 0, 0x007BFF, 511, true⟩) .b1).mem ∧
      (loading ⟨.b1, 0, 0x007BFF, 511, true⟩).LoadMayContinue ∧ ¬ InControlSpace 0x007BFF) := by
  unfold Block.LoadMayContinue InControlSpace InWindow; decide

/-- A running load meets the invariant, whatever its latch, up to 512 bytes. -/
theorem loading_inv (c : Cload) (h : c.count.toNat ≤ 512) : (loading c).Inv where
  scratch_wf := ⟨.nil, by simp [loading, Block.reset]⟩
  bank0_wf := ⟨.nil, by simp [loading, Block.reset, BankState.reset]⟩
  bank1_wf := ⟨.nil, by simp [loading, Block.reset, BankState.reset]⟩
  suspend_count := rfl
  load_count := fun _ => h
  load_tag := fun _ => by cases hb : c.bank <;> simp [loading, Block.reset, Block.bank, BankState.reset, hb]
  one_transfer := fun h => by simp [loading, Block.reset] at h
  dma_count := fun h => by simp [loading, Block.reset] at h

/-- A whole load, after a preload and after a fill. -/
theorem witness_CloadDone (f : Bool) :
    (loading ⟨.b1, 1, 0, 512, f⟩).cacheLoading = true ∧ (loading ⟨.b1, 1, 0, 512, f⟩).cload.count.toNat = 512 ∧
    (loading ⟨.b1, 1, 0, 512, f⟩).dmaActive = false := ⟨rfl, rfl, rfl⟩

/-- A count of 32 expires, a count of 0 and no suspend do not. -/
theorem witness_SuspendExpiry :
    ({ Block.reset with suspend := true, suspendCycles := 32 } : Block).suspendCycles.toNat ≠ 0 ∧
    ¬ (({ Block.reset with suspend := true } : Block).suspend = true ∧
      ({ Block.reset with suspend := true } : Block).suspendCycles.toNat ≠ 0) ∧
    ¬ (Block.reset.suspend = true ∧ Block.reset.suspendCycles.toNat ≠ 0) := by decide

/-- No transfer; a transfer with no byte to go; no load; a load of 512 bytes; a load of 511; a load behind an active DMA. -/
theorem witness_ControllerStepsStuckWhenNotEnabled :
    ¬ (Block.reset.dmaActive = true ∧ Block.reset.dmaCur.remaining.toNat ≠ 0) ∧
    ¬ ((dma 0 0 0).dmaActive = true ∧ (dma 0 0 0).dmaCur.remaining.toNat ≠ 0) ∧
    ¬ Block.reset.LoadMayContinue ∧ ¬ (loading ⟨.b0, 0, 0, 512, false⟩).LoadMayContinue ∧
    ¬ ((loading ⟨.b0, 0, 0, 511, false⟩).cacheLoading = true ∧ (loading ⟨.b0, 0, 0, 511, false⟩).cload.count.toNat = 512 ∧
      (loading ⟨.b0, 0, 0, 511, false⟩).dmaActive = false) := by
  unfold Block.LoadMayContinue; decide

/-- One flag at a time. -/
theorem witness_EngineNeedsGrant :
    running.Granted ∧ ¬ Block.reset.Granted ∧ ¬ Block.Granted { running with suspend := true } ∧
    ¬ Block.Granted { running with dmaActive := true } ∧ ¬ Block.Granted { running with cacheLoading := true } := by
  unfold Block.Granted; decide

/-- A bank with a valid tag and one without. -/
theorem witness_EngineHaltGprPage :
    ((st { running with bank1 := { BankState.reset with valid := true } }).EngineMayStep ∧
      (Block.bank { running with bank1 := { BankState.reset with valid := true } } .b1).valid = true) ∧
    ((st running).EngineMayStep ∧ (running.bank .b1).valid = false) := by
  unfold State.EngineMayStep Block.Granted; decide

/-- A granted chip whose two banks have these locks. -/
def locked (l0 l1 : Bool) : Block :=
  { running with bank0 := { BankState.reset with lock := l0 }, bank1 := { BankState.reset with lock := l1 } }

/-- The inactive bank, the active one, and a page that is held. -/
theorem witness_EngineFill :
    ((st (locked true false)).EngineMayStep ∧ (locked true false).Misses 0x7FFF ∧
      ((locked true false).bank (otherBank (locked true false).cachePage)).lock = false) ∧
    ((st (locked false true)).EngineMayStep ∧ (locked false true).Misses 0 ∧
      ((locked false true).bank (otherBank (locked false true).cachePage)).lock = true ∧
      ((locked false true).bank (locked false true).cachePage).lock = false) ∧
    ((st { running with bank0 := { BankState.reset with valid := true, page := 3 } }).EngineMayStep ∧
      ¬ Block.Misses { running with bank0 := { BankState.reset with valid := true, page := 3 } } 3) := by
  unfold State.EngineMayStep Block.Granted Block.Misses; decide

/-- A locked miss that a step takes; a stuck Engine and each kind of event; and lock bytes that unlock both banks, bank 1, bank 0. -/
theorem witness_LockedMissRecovers :
    ((st (locked true true)).EngineMayStep ∧ (locked true true).Misses 5 ∧ (locked true true).bank0.lock = true ∧
      (locked true true).bank1.lock = true ∧ decode ⟨.event, [2, 5, 0]⟩ = .ok (.engFill 5)) ∧
    (stuckEngine.blk.Granted ∧ stuckEngine.engineStuck = true ∧ decode ⟨.event, [0]⟩ = .ok .engHalt ∧
      EngineEvent .engHalt ∧ EngineEvent (.engGpr 0 0) ∧ EngineEvent (.engFill 5) ∧ EngineEvent (.engPage .b0) ∧
      EngineEvent (.engBus (.read 0))) ∧
    (stuckEngine.blk.Granted ∧ stuckEngine.blk.Misses 5 ∧ stuckEngine.blk.bank0.lock = true ∧ stuckEngine.blk.bank1.lock = true ∧
      (0xFC : Byte).toNat % 4 ≠ 3 ∧ (1 : Byte).toNat % 4 ≠ 3 ∧ (2 : Byte).toNat % 4 ≠ 3) := by
  unfold State.EngineMayStep Block.Granted Block.Misses
  exact ⟨by decide, ⟨by decide, rfl, rfl, .inl rfl, .inr (.inl ⟨_, _, rfl⟩), .inr (.inr (.inl ⟨_, rfl⟩)),
    .inr (.inr (.inr (.inl ⟨_, rfl⟩))), .inr (.inr (.inr (.inr ⟨_, rfl⟩)))⟩, by decide⟩

/-- The last scratch address before control space, and the cartridge. -/
theorem witness_EngineBus :
    Memory.wf 3072 running.scratch ∧ (st running).EngineMayStep ∧ ¬ InControlSpace 0x007BFF ∧ ¬ InControlSpace 0x008000 := by
  unfold State.EngineMayStep Block.Granted InControlSpace InWindow; decide

/-- A stuck Engine with both banks locked meets the whole invariant. -/
theorem stuckEngine_inv : stuckEngine.Inv :=
  ⟨⟨by decide, by decide, by decide, rfl, by decide, by decide, by decide, by decide⟩, fun _ => ⟨rfl, rfl⟩⟩

/-- A step from a state that meets the block's invariant with a load running, and one from a stuck Engine. -/
theorem witness_StepKeepsInvariant :
    ((sched ⟨.step, [4]⟩ (loading ⟨.b1, 1, 0, 512, true⟩)).blk.Inv ∧
      ∃ t, step (sched ⟨.step, [4]⟩ (loading ⟨.b1, 1, 0, 512, true⟩)) = .next t) ∧
    (stuckEngine.Inv ∧ ∃ t, step stuckEngine = .next t) :=
  ⟨⟨loading_inv _ (by decide), _, rfl⟩, stuckEngine_inv, _, rfl⟩

/-- A run start, a halt request and an ENG-HALT; a locked miss, and a lock write that frees the Engine. -/
theorem witness_RunStateTransitions :
    (Block.reset.halt = true ∧ ∃ t, step (sched ⟨.window, [0x4F, 0x3F, 0x00, 0x34]⟩ Block.reset) = .next t ∧ t.blk.halt = false) ∧
    (running.halt = false ∧ ∃ t, step (sched ⟨.window, [0x53, 0x3F, 0x00, 0x00]⟩ running) = .next t ∧ t.blk.halt = true) ∧
    (running.halt = false ∧ ∃ t, step (sched ⟨.event, [0]⟩ running) = .next t ∧ t.blk.halt = true) ∧
    (∃ t, step (sched ⟨.event, [2, 5, 0]⟩ (locked true true)) = .next t ∧ t.engineStuck = true) ∧
    (∃ t, step { sched ⟨.window, [0x4C, 0x3F, 0x00, 0x00]⟩ Block.reset with engineStuck := true } = .next t ∧ t.engineStuck = false) :=
  ⟨⟨rfl, _, rfl, rfl⟩, ⟨rfl, _, rfl, rfl⟩, ⟨rfl, _, rfl, rfl⟩, ⟨_, rfl, rfl⟩, _, rfl, rfl⟩

/-- A step that changes bank 1's contents in a state that meets the invariant, and one that changes a lock. -/
theorem witness_BankContentsAndLocks :
    (∃ t, step { sched ⟨.step, [3]⟩ (loading ⟨.b1, 1, 0x0A8200, 0, false⟩) with cartIn := [0x4C] } = .next t ∧
      (t.blk.bank .b1).mem ≠ ((loading ⟨.b1, 1, 0x0A8200, 0, false⟩).bank .b1).mem) ∧
    (loading ⟨.b1, 1, 0x0A8200, 0, false⟩).Inv ∧ ¬ (sched ⟨.step, [3]⟩ (loading ⟨.b1, 1, 0x0A8200, 0, false⟩)).TakesReset ∧
    (∃ t, step (sched ⟨.window, [0x4C, 0x3F, 0x00, 0x02]⟩ Block.reset) = .next t ∧
      (t.blk.bank .b1).lock ≠ (Block.reset.bank .b1).lock) :=
  ⟨⟨_, rfl, by decide⟩,
    loading_inv _ (by decide), fun ⟨_, _, h⟩ => (by cases h), _, rfl, by decide⟩

/-- No byte, and two bytes whose source wraps at the end of the address space. -/
theorem witness_DmaTakesExactlyItsLength :
    ((armed ⟨0, 0, 0⟩).DmaMayStart ∧ (armed ⟨0, 0, 0⟩).dmaLatch.len.toNat = 0) ∧
    ((armed ⟨0xFFFFFF, 2, 0x007BFE⟩).DmaMayStart ∧ (armed ⟨0xFFFFFF, 2, 0x007BFE⟩).dmaLatch.len.toNat = 2 ∧
      ∀ k < 2, ¬ InControlSpace (0xFFFFFF#24 + BitVec.ofNat 24 k) ∧ ¬ InControlSpace (0x007BFE#24 + BitVec.ofNat 24 k)) := by
  unfold Block.DmaMayStart InControlSpace InWindow; decide

/-- Two bytes that end at the last scratch index. -/
theorem witness_DmaCopiesCartridgeToScratch :
    (armed ⟨0x0A8000, 2, 0x006BFE⟩).DmaMayStart ∧ Memory.wf 3072 (armed ⟨0x0A8000, 2, 0x006BFE⟩).scratch ∧
    (armed ⟨0x0A8000, 2, 0x006BFE⟩).dmaLatch.len.toNat = [0x11#8, 0x22#8].length ∧ [0x11#8, 0x22#8] = [0x11#8, 0x22#8] ++ [] ∧
    3070 + [0x11#8, 0x22#8].length ≤ 3072 ∧
    ∀ k < [0x11#8, 0x22#8].length, OnCartridge (0x0A8000#24 + BitVec.ofNat 24 k) ∧
      ReachesScratch (0x006BFE#24 + BitVec.ofNat 24 k) (3070 + k) := by
  unfold Block.DmaMayStart OnCartridge ReachesScratch InWindow; decide

/-- P2's start: Halted and quiet, with the page's source address 0x0A8200 in the cartridge; either bank. -/
def page1 : Block := { Block.reset with programOffset := 0x0A8000, pageNumber := 1 }

theorem witness_PreloadLoadsWholePage :
    page1.Inv ∧ page1.halt = true ∧ page1.dmaActive = false ∧ page1.dmaPending = false ∧
    (Bank.b0 = if (0 : Byte).toNat % 2 = 1 then Bank.b1 else Bank.b0) ∧ (Bank.b1 = if (1 : Byte).toNat % 2 = 1 then Bank.b1 else Bank.b0) ∧
    (List.replicate 512 (7 : Byte)).length = 512 ∧
    ∀ n < 512, OnCartridge (BitVec.ofNat 24 (page1.programOffset.toNat + page1.pageNumber.toNat * 512 + n)) := by
  refine ⟨⟨by decide, by decide, by decide, rfl, by decide, by decide, by decide, by decide⟩, rfl, rfl, rfl, by decide, by decide,
    List.length_replicate, fun n hn => ?_⟩
  have h1 : page1.programOffset.toNat = 0x0A8000 := rfl
  have h2 : page1.pageNumber.toNat = 1 := rfl
  simp only [OnCartridge, InWindow, BitVec.toNat_ofNat, h1, h2]
  omega

end Sys2Proof.Tests
end

/-! The invariant of the block (spec/10_state.md R39 to R41, spec/43_dma_cache.md R200, R204, R210): every change of `S` an
instruction can make keeps it and the lock bits, but the lock write, which keeps it and sets them. -/

namespace Sys2Proof.Machine

/-- The fields of `S` that the invariant and the lock bits speak of. -/
def Block.guarded (b : Block) : (Memory × BankState × BankState) × BitVec 8 × (Bool × Cload) × Bool × DmaCur :=
  ((b.scratch, b.bank0, b.bank1), b.suspendCycles, (b.cacheLoading, b.cload), b.dmaActive, b.dmaCur)

/-- The change of `S` from `b` to `c` keeps the invariant, and both lock bits. -/
structure Block.Keeps (b c : Block) : Prop where
  inv : b.Inv → c.Inv
  locks : ∀ k, (c.bank k).lock = (b.bank k).lock

/-! ## Changes of single fields -/

theorem Block.Keeps.trans {b c e : Block} (h : b.Keeps c) (h' : c.Keeps e) : b.Keeps e :=
  ⟨fun hi => h'.inv (h.inv hi), fun k => (h'.locks k).trans (h.locks k)⟩

theorem inv_congr {b c : Block} (h : c.guarded = b.guarded) (hi : b.Inv) : c.Inv := by
  simp only [Block.guarded, Prod.mk.injEq] at h
  obtain ⟨⟨hs, h0, h1⟩, hc, ⟨hl, hload⟩, ha, hd⟩ := h
  have hbank (k : Bank) : c.bank k = b.bank k := by cases k <;> assumption
  constructor <;> simp only [hs, h0, h1, hc, hl, hload, ha, hd, hbank]
  exacts [hi.scratch_wf, hi.bank0_wf, hi.bank1_wf, hi.suspend_count, hi.load_count, hi.load_tag, hi.one_transfer, hi.dma_count]

/-- A change that leaves the guarded fields alone. -/
theorem keeps_of_guarded_eq {b c : Block} (h : c.guarded = b.guarded) : b.Keeps c where
  inv := inv_congr h
  locks k := by
    simp only [Block.guarded, Prod.mk.injEq] at h
    obtain ⟨⟨_, h0, h1⟩, _⟩ := h
    cases k
    · exact congrArg BankState.lock h0
    · exact congrArg BankState.lock h1

theorem keeps_of_eq {b c : Block} (h : c = b) : b.Keeps c := keeps_of_guarded_eq (congrArg Block.guarded h)

theorem scratchWrite_keeps (b : Block) (i : BitVec 12) (d : Byte) : b.Keeps (b.scratchWrite i d) := by
  obtain ⟨m, hm, hs⟩ := scratchWrite_eq b i d
  rw [hm]
  exact ⟨fun h => { h with scratch_wf := (hs h.scratch_wf).1 }, fun k => by cases k <;> rfl⟩

theorem suspend_keeps (b : Block) (x : Bool) {n : BitVec 8} (hn : n.toNat % 32 = 0) :
    b.Keeps { b with suspend := x, suspendCycles := n } where
  inv h := { h with suspend_count := hn }
  locks k := by cases k <;> rfl

/-- Every suspend count is a multiple of the suspend unit, also modulo 2^8 (spec/10_state.md R39). -/
theorem suspendCount_mod (k : Nat) : (suspendCount k).toNat % 32 = 0 := by
  simp only [suspendCount, Config.suspendUnit, BitVec.toNat_ofNat]
  omega

theorem suspendFor_keeps (b : Block) (k : Nat) : b.Keeps (b.suspendFor k) := suspend_keeps b true (suspendCount_mod k)

/-! ## The address generator -/

/-- DMA-START: the length is 16 bits, and a load that is running has not begun (R200, R204). -/
theorem startDma_keeps {b : Block} (hs : b.DmaMayStart) : b.Keeps b.startDma where
  inv h :=
    have ⟨_, _, _, hcount⟩ := hs
    { h with
      one_transfer := fun _ hl => BitVec.eq_of_toNat_eq (hcount hl)
      dma_count := fun _ => by
        have := b.dmaLatch.len.isLt
        simp only [Block.startDma, BitVec.toNat_setWidth]
        omega }
  locks k := by cases k <;> rfl

theorem advanceDma_keeps {b : Block} (hr : b.dmaCur.remaining.toNat ≠ 0) : b.Keeps { b with dmaCur := b.dmaCur.advance } where
  inv h :=
    { h with
      dma_count := fun ha => by
        have hle := h.dma_count ha
        obtain ⟨_, _, hn⟩ := advance_toNat b.dmaCur hr
        show b.dmaCur.advance.remaining.toNat ≤ 65535
        omega }
  locks k := by cases k <;> rfl

theorem endDma_keeps (b : Block) : b.Keeps { b with dmaActive := false } where
  inv h := { h with one_transfer := fun ha => absurd ha (by simp), dma_count := fun ha => absurd ha (by simp) }
  locks k := by cases k <;> rfl

/-! ## The banks and the cache loader -/

theorem bank_setBank (b : Block) (k : Bank) (x : BankState) (j : Bank) : (b.setBank k x).bank j = if j = k then x else b.bank j := by
  cases k <;> cases j <;> rfl

/-- A bank is replaced by one with the same lock and a canonical memory; while a load is running, no tag becomes valid. -/
theorem setBank_keeps {b : Block} {k : Bank} {x : BankState} (hlock : x.lock = (b.bank k).lock)
    (hwf : Memory.wf 512 (b.bank k).mem → Memory.wf 512 x.mem)
    (hvalid : b.cacheLoading = true → (b.bank k).valid = false → x.valid = false) : b.Keeps (b.setBank k x) := by
  have hlocks (j : Bank) : ((b.setBank k x).bank j).lock = (b.bank j).lock := by
    rw [bank_setBank]
    split
    · next hj => rw [hlock, hj]
    · rfl
  have htag (h : b.Inv) (hl : b.cacheLoading = true) : ((b.setBank k x).bank b.cload.bank).valid = false := by
    rw [bank_setBank]
    split
    · next hk => exact hvalid hl (hk ▸ h.load_tag hl)
    · exact h.load_tag hl
  refine ⟨fun h => ?_, hlocks⟩
  cases k with
  | b0 => exact { h with bank0_wf := hwf h.bank0_wf, load_tag := htag h }
  | b1 => exact { h with bank1_wf := hwf h.bank1_wf, load_tag := htag h }

/-- The loader's latch is replaced by one of at most 512 bytes, none while a DMA is active, for a bank whose tag is invalid. -/
theorem setCload_keeps {b : Block} {x : Bool} {c : Cload} (hn : c.count.toNat ≤ 512) (ht : b.Inv → (b.bank c.bank).valid = false)
    (hd : b.dmaActive = true → c.count = 0) : b.Keeps { b with cacheLoading := x, cload := c } where
  inv h := { h with load_count := fun _ => hn, load_tag := fun _ => ht h, one_transfer := fun ha _ => hd ha }
  locks k := by cases k <;> rfl

theorem stopLoad_keeps (b : Block) : b.Keeps { b with cacheLoading := false } where
  inv h :=
    { h with
      load_count := fun hl => absurd hl (by simp)
      load_tag := fun hl => absurd hl (by simp)
      one_transfer := fun _ hl => absurd hl (by simp) }
  locks k := by cases k <;> rfl

/-- A load starts with count 0 and an invalid tag, whatever ran before it (R171, R246). -/
theorem startLoad_keeps (b : Block) (k : Bank) (p : BitVec 15) (fill : Bool) : b.Keeps (b.startLoad k p fill) :=
  (setBank_keeps (k := k) (x := { b.bank k with valid := false }) rfl id fun _ _ => rfl).trans
    (setCload_keeps (Nat.zero_le 512) (fun _ => by simp) fun _ => rfl)

/-- CLOAD-BYTE: it stores below 512, counts up to 512, and is taken only while no DMA is active (R200, R205). -/
theorem storeLoaded_keeps {b : Block} (v : Byte) (hc : b.LoadMayContinue) : b.Keeps (b.storeLoaded v) := by
  obtain ⟨hl, hn, ha, _⟩ := hc
  have hnext : (b.cload.count + 1).toNat ≤ 512 := by
    rw [BitVec.toNat_add]
    exact (Nat.mod_le ..).trans hn
  refine (setBank_keeps (k := b.cload.bank)
    (x := { b.bank b.cload.bank with mem := Memory.write (b.bank b.cload.bank).mem b.cload.count.toNat v })
    rfl (Memory.wf_write v hn) fun _ hv => hv).trans (setCload_keeps hnext (fun h => ?_) fun h => ?_)
  · simpa using h.load_tag (by simpa using hl)
  · simp [ha] at h

/-- CLOAD-DONE: the tag becomes valid as the load ends (R207). -/
theorem finishLoad_keeps (b : Block) : b.Keeps b.finishLoad := by
  have hbank : Block.Keeps { b with cacheLoading := false } (Block.setBank { b with cacheLoading := false } b.cload.bank
      { b.bank b.cload.bank with valid := true, page := b.cload.page }) :=
    setBank_keeps rfl id fun hl => absurd hl (by simp)
  refine ((stopLoad_keeps b).trans hbank).trans (keeps_of_guarded_eq ?_)
  simp only [Block.finishLoad, Block.guarded]
  cases b.cload.bank <;> rfl

/-! ## Writes of the register file, the lock byte aside -/

theorem writeDmaTargetHigh_keeps (b : Block) (d : Byte) : b.Keeps (b.writeDmaTargetHigh d) := by
  unfold Block.writeDmaTargetHigh
  apply keeps_of_guarded_eq
  dsimp only
  split <;> rfl

theorem writePreload_keeps (b : Block) (d : Byte) : b.Keeps (b.writePreload d) := by
  have hstore : b.Keeps { b with cachePreload := d.getLsbD 0 } := keeps_of_guarded_eq rfl
  unfold Block.writePreload
  dsimp only
  split
  · exact hstore.trans (startLoad_keeps _ _ _ _)
  · exact hstore

theorem writePc_keeps (b : Block) (d : Byte) : b.Keeps (b.writePc d) := by
  unfold Block.writePc
  apply keeps_of_guarded_eq
  dsimp only
  split <;> rfl

/-! ## Instructions -/

theorem chipBusWrite_keeps {a : Addr} {v : Byte} {s s' : State} (h : chipBusWrite a v s = some s') : s.blk.Keeps s'.blk := by
  rcases chipBusWrite_some h with ⟨i, _, rfl⟩ | ⟨_, rfl⟩
  · exact scratchWrite_keeps s.blk i v
  · exact keeps_of_eq rfl

theorem moveDmaByte_keeps {s t : State} (hr : s.blk.dmaCur.remaining.toNat ≠ 0) (h : moveDmaByte s = .next t) :
    s.blk.Keeps t.blk := by
  obtain ⟨v, s1, s2, hread, hwrite, rfl⟩ := moveDmaByte_next h
  have hcur : s2.blk.dmaCur = s.blk.dmaCur := by rw [chipBusWrite_blk hwrite, chipBusRead_blk hread]
  have hkeeps := chipBusWrite_keeps hwrite
  rw [chipBusRead_blk hread] at hkeeps
  exact hkeeps.trans (advanceDma_keeps (hcur ▸ hr))

theorem moveLoadByte_keeps {s t : State} (hc : s.blk.LoadMayContinue) (h : moveLoadByte s = .next t) : s.blk.Keeps t.blk := by
  obtain ⟨v, s1, hread, rfl⟩ := moveLoadByte_next h
  rw [setBlk_blk, chipBusRead_blk hread]
  exact storeLoaded_keeps v hc

theorem engineBus_keeps {acc : BusAccess} {s t : State} (h : engineBus acc s = .next t) : s.blk.Keeps t.blk := by
  rcases engineBus_next h with ⟨a, v, s1, _, hread, rfl⟩ | ⟨a, d, _, hwrite⟩
  · exact keeps_of_eq ((emit_blk ..).trans (chipBusRead_blk hread))
  · exact chipBusWrite_keeps hwrite

theorem syncFor_keeps (s : State) (a : Access) : s.blk.Keeps (s.syncFor a).blk := keeps_of_eq (by rw [syncFor_eq])

/-- Every instruction but the lock write keeps the invariant and the lock bits. The last case is that of the window reads and of the
window writes that store in none of the guarded fields. -/
theorem exec_keeps {i : Instr} {s t : State} (h : exec i s = .next t) (hi : ¬ ∃ a d, i = .wrCachelock a d) :
    s.blk.Keeps t.blk := by
  cases i with
  | wrCachelock a d => exact absurd ⟨a, d, rfl⟩ hi
  | wrScratch0000 | wrScratch0800 | wrScratchOor | wrScratch1000 | wrScratch1800 =>
    cases h
    exact (syncFor_keeps s _).trans (scratchWrite_keeps ..)
  | wrDmatgtH =>
    cases h
    exact (syncFor_keeps s _).trans (writeDmaTargetHigh_keeps ..)
  | wrCpreload =>
    cases h
    exact (syncFor_keeps s _).trans (writePreload_keeps ..)
  | wrPc =>
    cases h
    exact (syncFor_keeps s _).trans (writePc_keeps ..)
  | wrSuspend0 | wrSuspend1 | wrSuspend2 | wrSuspend3 | wrSuspend4 | wrSuspend5 | wrSuspend6 | wrSuspend7 =>
    cases h
    exact (syncFor_keeps s _).trans (suspendFor_keeps ..)
  | romRead ctx addr =>
    cases h
    exact keeps_of_eq (romPortRead_blk ctx addr s)
  | speedQuery =>
    cases h
    exact keeps_of_eq rfl
  | dmaStart =>
    obtain ⟨he, hn⟩ := whenEnabled_next.mp h
    cases hn
    exact startDma_keeps ((dmaStartEnabled_iff _).mp he)
  | dmaByte =>
    obtain ⟨he, hn⟩ := whenEnabled_next.mp h
    exact moveDmaByte_keeps ((dmaByteEnabled_iff _).mp he).2 hn
  | dmaDone =>
    obtain ⟨_, hn⟩ := whenEnabled_next.mp h
    cases hn
    exact endDma_keeps s.blk
  | cloadByte =>
    obtain ⟨he, hn⟩ := whenEnabled_next.mp h
    exact moveLoadByte_keeps ((cloadByteEnabled_iff _).mp he) hn
  | cloadDone =>
    obtain ⟨_, hn⟩ := whenEnabled_next.mp h
    cases hn
    exact finishLoad_keeps s.blk
  | suspExpire =>
    obtain ⟨_, hn⟩ := whenEnabled_next.mp h
    cases hn
    exact suspend_keeps s.blk false rfl
  | engHalt =>
    simp only [exec, execEngHalt] at h
    obtain ⟨_, hn⟩ := whenGranted_next.mp h
    cases hn
    exact keeps_of_guarded_eq rfl
  | engGpr =>
    simp only [exec, execEngGpr] at h
    obtain ⟨_, hn⟩ := whenGranted_next.mp h
    cases hn
    exact keeps_of_guarded_eq rfl
  | engFill p =>
    obtain ⟨_, hn⟩ := whenGranted_next.mp h
    obtain ⟨k, _, _, rfl⟩ := requestFill_next hn
    exact startLoad_keeps s.blk k p true
  | engPage =>
    simp only [exec, execEngPage] at h
    obtain ⟨_, hn⟩ := whenGranted_next.mp h
    split at hn <;> cases hn
    exact keeps_of_guarded_eq rfl
  | engBus =>
    obtain ⟨_, hn⟩ := whenGranted_next.mp h
    exact engineBus_keeps hn
  | _ =>
    cases h
    exact (syncFor_keeps s _).trans (keeps_of_guarded_eq rfl)

/-! ## The lock write -/

theorem writeLocks_inv {b : Block} (d : Byte) (h : b.Inv) : (b.writeLocks d).Inv := by
  unfold Block.writeLocks
  split
  · refine { h with load_tag := fun hl => ?_ }
    have ht := h.load_tag hl
    cases hc : b.cload.bank <;> simpa [hc] using ht
  · exact h

/-- A lock write that leaves the Engine stuck leaves both banks locked (R210). -/
theorem execWrCachelock_inv {a : Access} {d : Byte} {s t : State} (h : execWrCachelock a d s = .next t) (hi : s.Inv) : t.Inv := by
  rw [execWrCachelock_eq] at h
  cases h
  refine ⟨writeLocks_inv d hi.blk, fun hs => ?_⟩
  simp only [Bool.and_eq_true, Bool.not_eq_true', Bool.and_eq_false_iff] at hs
  obtain ⟨hst, hd⟩ := hs
  show (s.blk.writeLocks d).bank0.lock = true ∧ (s.blk.writeLocks d).bank1.lock = true
  unfold Block.writeLocks
  split
  · next hh => simpa [hh] using hd
  · exact hi.stuck hst

/-! ## The invariant under an instruction and under a step -/

theorem exec_blk_inv {i : Instr} {s t : State} (h : exec i s = .next t) (hi : s.blk.Inv) : t.blk.Inv := by
  by_cases hlock : ∃ a d, i = .wrCachelock a d
  · obtain ⟨a, d, rfl⟩ := hlock
    simp only [exec, execWrCachelock_eq] at h
    cases h
    exact writeLocks_inv d hi
  · exact (exec_keeps h hlock).inv hi

theorem exec_inv {i : Instr} {s t : State} (h : exec i s = .next t) (hi : s.Inv) : t.Inv := by
  by_cases hlock : ∃ a d, i = .wrCachelock a d
  · obtain ⟨a, d, rfl⟩ := hlock
    exact execWrCachelock_inv h hi
  · have hk := exec_keeps h hlock
    have hst : t.engineStuck = s.engineStuck :=
      (engineStuck_of_next h).resolve_right fun ⟨a, d, hw, _⟩ => hlock ⟨a, d, hw⟩
    refine ⟨hk.inv hi.blk, fun hs => ?_⟩
    obtain ⟨h0, h1⟩ := hi.stuck (hst ▸ hs)
    exact ⟨(hk.locks .b0).trans h0, (hk.locks .b1).trans h1⟩

theorem resetDraw_inv (d : ResetDraw) : (resetDraw d).Inv where
  scratch_wf := Memory.wf_ofCells 3072 d.scratch
  bank0_wf := Memory.wf_ofCells 512 d.cacheMem0
  bank1_wf := Memory.wf_ofCells 512 d.cacheMem1
  suspend_count := rfl
  load_count h := by cases h
  load_tag h := by cases h
  one_transfer h := by cases h
  dma_count h := by cases h

theorem systemReset_blk_inv (d : ResetDraw) {s : State} (hi : s.blk.Inv) : (systemReset d s).blk.Inv := by
  unfold systemReset
  split
  · exact resetDraw_inv d
  · exact hi

theorem systemReset_inv (d : ResetDraw) {s : State} (hi : s.Inv) : (systemReset d s).Inv := by
  refine ⟨systemReset_blk_inv d hi.blk, ?_⟩
  unfold systemReset
  split
  · exact fun hs => by cases hs
  · exact hi.stuck

/-- A step that is passed over leaves the Engine stuck only after a locked miss, which needs both banks locked. -/
theorem passedOver_inv {i : Instr} {s : State} {f : Fault} (h : exec i s = .fault f) (hi : s.Inv) :
    (State.emit { s with engineStuck := s.engineStuck || f.sticks } (.stuck f)).Inv := by
  refine ⟨hi.blk, fun hs => ?_⟩
  rcases Bool.or_eq_true_iff.mp hs with hst | hf
  · exact hi.stuck hst
  · obtain ⟨_, _, _, _, hnone⟩ := sticks_of_fault h hf
    exact (fillBank_none _).mp hnone

theorem step_blk_inv {s t : State} (h : step s = .next t) (hi : s.blk.Inv) : t.blk.Inv := by
  rcases step_next h with ⟨_, rfl⟩ | ⟨d, rest, _, rfl⟩ | ⟨_, i, rest, _, _, hn | ⟨f, _, rfl⟩⟩
  · exact hi
  · exact systemReset_blk_inv d hi
  · exact exec_blk_inv hn hi
  · exact hi

theorem step_inv {s t : State} (h : step s = .next t) (hi : s.Inv) : t.Inv := by
  have hrest (rest : List Entry) : State.Inv { s with inbox := rest } := ⟨hi.blk, hi.stuck⟩
  rcases step_next h with ⟨_, rfl⟩ | ⟨d, rest, _, rfl⟩ | ⟨_, i, rest, _, _, hn | ⟨f, hf, rfl⟩⟩
  · exact hi
  · exact systemReset_inv d (hrest rest)
  · exact exec_inv hn (hrest rest)
  · exact passedOver_inv hf (hrest rest)

/-- Settles O55: the block's invariant by what each change of `S` keeps, and both banks locked under a stuck Engine because only a
locked miss leaves it stuck and only a lock write or a reset changes the lock bits. -/
theorem stepKeepsInvariant : Obligations.StepKeepsInvariant :=
  fun _ _ h => ⟨step_blk_inv h, step_inv h⟩

end Sys2Proof.Machine

/-! One step by what its entry is (spec/20_memory.md R66, R68), and window reads as functions of `S` (R65). -/

namespace Sys2Proof.Machine

/-! ## The step, entry by entry -/

/-- Only a locked miss leaves the Engine stuck (spec/43_dma_cache.md R210). -/
theorem sticks_eq_false {f : Fault} (h : ∀ p, f ≠ .lockedMissStuck p) : f.sticks = false := by
  cases f with
  | lockedMissStuck p => exact absurd rfl (h p)
  | controllerStepNotEnabled | engineNotGranted | engineStuck | enginePageHeld | engineBankInvalid => rfl

theorem step_idle {s : State} (hs : s.inbox = []) : step s = .next s := by
  simp [step, takeEntry, hs]

theorem step_malformed {s : State} {x : Txn} {rest : List Entry} {e : DecodeError} (hs : s.inbox = .txn x :: rest)
    (hd : decode x = .error e) : step s = .refused (.malformed e) := by
  simp [step, takeEntry, hs, hd]

/-- Settles O5: the step is `exec` passed over where it is stuck, and a stuck outcome marks the Engine only for a locked miss. -/
theorem stepRunsDecodedInstruction : Obligations.StepRunsDecodedInstruction := by
  refine ⟨fun s x rest hs => ⟨fun i hd => ⟨fun t h => ?_, fun f h hf => ?_, fun p h => ?_, fun r h => ?_⟩,
    fun e hd => step_malformed hs hd⟩, fun s hs => step_idle hs⟩
  · rw [step_txn hs hd, h]; rfl
  · rw [step_stuck hs hd h, sticks_eq_false hf, Bool.or_false]
  · rw [step_stuck hs hd h, sticks_lockedMissStuck, Bool.or_true]
  · rw [step_txn hs hd, h]; rfl

/-! ## Window reads -/

theorem exec_decodeReadRegister (a : Access) (r : BitVec 5) :
    ∃ f, ∀ s, exec (decodeReadRegister a r) s = windowRead a f s := by
  unfold decodeReadRegister
  split <;> simp only [exec] <;> exact ⟨_, fun _ => rfl⟩

/-- Whatever the offset, the instruction the decoder reads there is one shared window read. -/
theorem exec_decodeRead (a : Access) (o : Offset) : ∃ f, ∀ s, exec (decodeRead a o) s = windowRead a f s := by
  fun_cases decodeRead a o with
  | case9 => exact exec_decodeReadRegister a _ -- the register block, 0x1F40 to 0x1F5F
  | _ =>
    simp only [exec]
    exact ⟨_, fun _ => rfl⟩

/-- Settles O20: a window read's byte is a function of `S`, and the read is logged in the trace and nowhere else. -/
theorem windowReadsAreFunctionsOfBlock : Obligations.WindowReadsAreFunctionsOfBlock := by
  intro a o b ha
  obtain ⟨f, hf⟩ := exec_decodeRead a o
  exact ⟨decodeRead a o, f b, decode_encodeRead ha o, fun s hs => by rw [hf, windowRead_eq, hs]⟩

end Sys2Proof.Machine

/-! The contents of the cache banks change only by CLOAD-BYTE (spec/20_memory.md R74, spec/43_dma_cache.md R205), and the lock bits
only by a lock write while Halted (R73, spec/42_register_write.md R175). -/

namespace Sys2Proof.Machine

/-- The change of `S` from `b` to `c` leaves the contents of both banks alone. -/
def Block.KeepsContents (b c : Block) : Prop := ∀ k, (c.bank k).mem = (b.bank k).mem

/-! ## Changes of `S` that leave the banks' contents alone -/

/-- A bank is replaced by one with the same contents. -/
theorem setBank_keepsContents {b : Block} {j : Bank} {x : BankState} (hx : x.mem = (b.bank j).mem) :
    b.KeepsContents (b.setBank j x) := by
  intro k
  rw [bank_setBank]
  split
  · next hk => rw [hx, hk]
  · rfl

theorem startLoad_keepsContents (b : Block) (j : Bank) (p : BitVec 15) (fill : Bool) : b.KeepsContents (b.startLoad j p fill) :=
  setBank_keepsContents (x := { b.bank j with valid := false }) rfl

theorem finishLoad_keepsContents (b : Block) : b.KeepsContents b.finishLoad :=
  setBank_keepsContents (x := { b.bank b.cload.bank with valid := true, page := b.cload.page }) rfl

theorem scratchWrite_keepsContents (b : Block) (i : BitVec 12) (d : Byte) : b.KeepsContents (b.scratchWrite i d) := by
  obtain ⟨m, hm, _⟩ := scratchWrite_eq b i d
  rw [hm]
  exact fun _ => rfl

theorem writeDmaTargetHigh_keepsContents (b : Block) (d : Byte) : b.KeepsContents (b.writeDmaTargetHigh d) := by
  unfold Block.writeDmaTargetHigh
  dsimp only
  split <;> exact fun _ => rfl

theorem writePreload_keepsContents (b : Block) (d : Byte) : b.KeepsContents (b.writePreload d) := by
  unfold Block.writePreload
  dsimp only
  split
  · exact startLoad_keepsContents { b with cachePreload := d.getLsbD 0 } _ _ _
  · exact fun _ => rfl

theorem writePc_keepsContents (b : Block) (d : Byte) : b.KeepsContents (b.writePc d) := by
  unfold Block.writePc
  dsimp only
  split <;> exact fun _ => rfl

theorem writeLocks_keepsContents (b : Block) (d : Byte) : b.KeepsContents (b.writeLocks d) := by
  unfold Block.writeLocks
  split
  · intro k
    cases k <;> rfl
  · exact fun _ => rfl

theorem chipBusWrite_keepsContents {a : Addr} {v : Byte} {s s' : State} (h : chipBusWrite a v s = some s') :
    s.blk.KeepsContents s'.blk := by
  rw [chipBusWrite_blk h]
  exact fun _ => rfl

theorem moveDmaByte_keepsContents {s t : State} (h : moveDmaByte s = .next t) : s.blk.KeepsContents t.blk := by
  obtain ⟨v, s1, s2, hread, hwrite, rfl⟩ := moveDmaByte_next h
  have hstore := chipBusWrite_keepsContents hwrite
  rwa [chipBusRead_blk hread] at hstore

theorem engineBus_keepsContents {acc : BusAccess} {s t : State} (h : engineBus acc s = .next t) : s.blk.KeepsContents t.blk := by
  rcases engineBus_next h with ⟨a, v, s1, _, hread, rfl⟩ | ⟨a, d, _, hwrite⟩
  · rw [emit_blk, chipBusRead_blk hread]
    exact fun _ => rfl
  · exact chipBusWrite_keepsContents hwrite

/-! ## Instructions -/

theorem syncFor_blk (s : State) (a : Access) : (s.syncFor a).blk = s.blk := by rw [syncFor_eq]

/-- The `Sync` of a window transaction comes before its effect and changes no field of `S`. -/
theorem Block.KeepsContents.of_syncFor {s : State} {a : Access} {c : Block} (h : (s.syncFor a).blk.KeepsContents c) :
    s.blk.KeepsContents c := by
  rwa [syncFor_blk] at h

/-- Every instruction but CLOAD-BYTE leaves the contents of both banks alone. The last case is that of the window reads and of the
window writes that store in single fields of `S` outside the banks. -/
theorem exec_keepsContents {i : Instr} {s t : State} (h : exec i s = .next t) (hi : i ≠ .cloadByte) :
    s.blk.KeepsContents t.blk := by
  cases i with
  | cloadByte => exact absurd rfl hi
  | wrScratch0000 | wrScratch0800 | wrScratchOor | wrScratch1000 | wrScratch1800 =>
    cases h
    exact .of_syncFor (scratchWrite_keepsContents _ _ _)
  | wrDmatgtH =>
    cases h
    exact .of_syncFor (writeDmaTargetHigh_keepsContents _ _)
  | wrCpreload =>
    cases h
    exact .of_syncFor (writePreload_keepsContents _ _)
  | wrPc =>
    cases h
    exact .of_syncFor (writePc_keepsContents _ _)
  | wrCachelock a d =>
    simp only [exec, execWrCachelock_eq] at h
    cases h
    exact writeLocks_keepsContents s.blk d
  | romRead ctx addr =>
    cases h
    rw [romPortRead_blk]
    exact fun _ => rfl
  | speedQuery =>
    cases h
    exact fun _ => rfl
  | dmaStart | dmaDone | suspExpire =>
    obtain ⟨_, hn⟩ := whenEnabled_next.mp h
    cases hn
    exact fun _ => rfl
  | dmaByte =>
    obtain ⟨_, hn⟩ := whenEnabled_next.mp h
    exact moveDmaByte_keepsContents hn
  | cloadDone =>
    obtain ⟨_, hn⟩ := whenEnabled_next.mp h
    cases hn
    exact finishLoad_keepsContents s.blk
  | engHalt | engGpr =>
    simp only [exec, execEngHalt, execEngGpr] at h
    obtain ⟨_, hn⟩ := whenGranted_next.mp h
    cases hn
    exact fun _ => rfl
  | engFill p =>
    obtain ⟨_, hn⟩ := whenGranted_next.mp h
    obtain ⟨k, _, _, rfl⟩ := requestFill_next hn
    exact startLoad_keepsContents s.blk k p true
  | engPage =>
    simp only [exec, execEngPage] at h
    obtain ⟨_, hn⟩ := whenGranted_next.mp h
    split at hn <;> cases hn
    exact fun _ => rfl
  | engBus =>
    obtain ⟨_, hn⟩ := whenGranted_next.mp h
    exact engineBus_keepsContents hn
  | _ =>
    cases h
    exact .of_syncFor fun _ => rfl

/-- CLOAD-BYTE stores in the loading bank only (R205). -/
theorem storeLoaded_bank_mem {b : Block} (v : Byte) {k : Bank} (hk : b.cload.bank ≠ k) :
    ((b.storeLoaded v).bank k).mem = (b.bank k).mem := by
  show ((b.setBank b.cload.bank _).bank k).mem = (b.bank k).mem
  rw [bank_setBank, if_neg hk.symm]

/-- An instruction that changes the contents of a bank is a CLOAD-BYTE of a load into that bank. -/
theorem exec_contents_changed {i : Instr} {s t : State} {k : Bank} (h : exec i s = .next t)
    (hm : (t.blk.bank k).mem ≠ (s.blk.bank k).mem) : i = .cloadByte ∧ s.blk.cacheLoading = true ∧ s.blk.cload.bank = k := by
  by_cases hi : i = .cloadByte
  · subst hi
    obtain ⟨he, hn⟩ := whenEnabled_next.mp h
    obtain ⟨hl, _⟩ := (cloadByteEnabled_iff _).mp he
    obtain ⟨v, s1, hread, rfl⟩ := moveLoadByte_next hn
    refine ⟨rfl, hl, by_contra fun hk => hm ?_⟩
    rw [setBlk_blk, chipBusRead_blk hread]
    exact storeLoaded_bank_mem v hk
  · exact absurd (exec_keepsContents h hi k) hm

/-- While Running, a lock write leaves `S` as it is (R175). -/
theorem writeLocks_running {b : Block} (d : Byte) (h : b.halt = false) : b.writeLocks d = b := by
  simp [Block.writeLocks, h]

/-- An instruction that changes a lock bit is a lock write while Halted. -/
theorem exec_lock_changed {i : Instr} {s t : State} {k : Bank} (h : exec i s = .next t)
    (hl : (t.blk.bank k).lock ≠ (s.blk.bank k).lock) : (∃ a d, i = .wrCachelock a d) ∧ s.blk.halt = true := by
  by_cases hi : ∃ a d, i = .wrCachelock a d
  · refine ⟨hi, by_contra fun hh => hl ?_⟩
    obtain ⟨a, d, rfl⟩ := hi
    simp only [exec, execWrCachelock_eq] at h
    cases h
    simp [writeLocks_running d (Bool.eq_false_of_not_eq_true hh)]
  · exact absurd ((exec_keeps h hi).locks k) hl

/-- Settles O57: only an instruction that completes changes `S`, and the two lemmas above say which one it is; the tag of a loading
bank is invalid by the invariant. -/
theorem bankContentsAndLocks : Obligations.BankContentsAndLocks := by
  intro s t h hreset k
  rcases step_next h with ⟨_, rfl⟩ | ⟨d, rest, hs, _⟩ | ⟨x, i, rest, hs, hd, hn | ⟨f, _, rfl⟩⟩
  · exact ⟨fun hm => absurd rfl hm, fun hl => absurd rfl hl⟩
  · exact absurd ⟨d, rest, hs⟩ hreset
  · constructor
    · intro hm
      obtain ⟨rfl, hload, hbank⟩ := exec_contents_changed hn hm
      exact ⟨⟨x, rest, hs, hd⟩, hload, hbank, fun hinv => hbank ▸ hinv.load_tag hload⟩
    · intro hl
      obtain ⟨⟨a, d, rfl⟩, hhalt⟩ := exec_lock_changed hn hl
      exact ⟨⟨a, d, x, rest, hs, hd⟩, hhalt⟩
  · exact ⟨fun hm => absurd rfl hm, fun hl => absurd rfl hl⟩

end Sys2Proof.Machine

/-! The encoding of transactions (spec/30_encoding.md R80 to R89): the decoder and the encoder are inverse on well-formed instructions,
and the window rows of the opcode table say the same as the decoder, each key in one row. -/

namespace Sys2Proof

open Machine

/-! ## Fixed offset bits, then the bits a row frees -/

theorem append_eq_ofNat {m w : Nat} (n : Nat) (x : BitVec w) :
    BitVec.ofNat m n ++ x = BitVec.ofNat (m + w) (n * 2 ^ w + x.toNat) := by
  apply BitVec.eq_of_toNat_eq
  rw [BitVec.toNat_append, ← Nat.shiftLeft_add_eq_or_of_lt x.isLt, Nat.shiftLeft_eq, BitVec.toNat_ofNat, BitVec.toNat_ofNat,
    Nat.pow_add', Nat.mod_mul, Nat.mul_add_mod_self_right, Nat.mod_eq_of_lt x.isLt, Nat.mul_comm n,
    Nat.mul_add_div (Nat.two_pow_pos w), Nat.div_eq_of_lt x.isLt, Nat.add_zero, Nat.mul_comm, Nat.add_comm]

/-- A value between `n * 2 ^ w` and the next multiple is `n` above its own `w` low bits. -/
theorem append_low {m w n : Nat} {o : BitVec (m + w)} (hle : n * 2 ^ w ≤ o.toNat) (hlt : o.toNat < (n + 1) * 2 ^ w) :
    BitVec.ofNat m n ++ o.extractLsb' 0 w = o := by
  have hn : o.toNat / 2 ^ w = n := Nat.div_eq_of_lt_le hle hlt
  rw [append_eq_ofNat, BitVec.extractLsb'_toNat, Nat.shiftRight_zero, ← hn, Nat.div_add_mod', BitVec.ofNat_toNat,
    BitVec.setWidth_eq]

/-! ## Encoding, then decoding -/

theorem decode_encodeRead_of {a : Access} (h : a.wellFormed = true) {p o : Offset} {i : Instr} (hp : p = o)
    (hd : decodeRead a o = i) : decode (encodeRead a p) = .ok i := by
  rw [hp, decode_encodeRead h, hd]

theorem decode_encodeWrite_of {a : Access} (h : a.wellFormed = true) {p o : Offset} {d : Byte} {i : Instr} (hp : p = o)
    (hd : decodeWrite a o d = i) : decode (encodeWrite a p d) = .ok i := by
  rw [hp, decode_encodeWrite h, hd]

theorem decodeEngGpr_setWidth (i : BitVec 4) (v : BitVec 24) :
    decodeEngGpr (i.setWidth 8) (v.extractLsb' 0 8) (v.extractLsb' 8 8) (v.extractLsb' 16 8) = .ok (.engGpr i v) := by
  have hlow : (i.setWidth 8).extractLsb' 0 4 = i := by
    rw [BitVec.extractLsb'_setWidth_of_le (by decide), BitVec.extractLsb'_eq_self]
  have hhigh : (i.setWidth 8).extractLsb' 4 4 = 0 := by
    ext n hn
    simp
  rw [decodeEngGpr, if_pos hhigh, hlow, join24_bytes24]

theorem decodeEngFill_setWidth (p : BitVec 15) :
    decodeEngFill ((p.setWidth 16).extractLsb' 0 8) ((p.setWidth 16).extractLsb' 8 8) = .ok (.engFill p) := by
  have hlow : (p.setWidth 16).extractLsb' 0 15 = p := by
    rw [BitVec.extractLsb'_setWidth_of_le (by decide), BitVec.extractLsb'_eq_self]
  have hhigh : ((p.setWidth 16).extractLsb' 8 8).getLsbD 7 = false := by simp
  rw [decodeEngFill, hhigh, if_neg Bool.false_ne_true, join16_bytes16, hlow]

/-- The window rows by the decoder's law for their band or register, the other ports by their fields. -/
theorem decode_encode {i : Instr} (h : i.wellFormed = true) : decode (encode i) = .ok i := by
  cases i with
  | rdScratch0000 a k => exact decode_encodeRead_of h (append_eq_ofNat _ k) (decodeRead_scratch0000 a k)
  | rdScratch0800 a k => exact decode_encodeRead_of h (append_eq_ofNat _ k) (decodeRead_scratch0800 a k)
  | rdScratchOor a k => exact decode_encodeRead_of h (append_eq_ofNat _ k) (decodeRead_scratchOor a k)
  | rdScratch1000 a k => exact decode_encodeRead_of h (append_eq_ofNat _ k) (decodeRead_scratch1000 a k)
  | rdScratch1800 a k => exact decode_encodeRead_of h (append_eq_ofNat _ k) (decodeRead_scratch1800 a k)
  | rdUnmapped1C00 a k => exact decode_encodeRead_of h (append_eq_ofNat _ k) (decodeRead_unmapped1C00 a k)
  | rdUnmapped1E00 a k => exact decode_encodeRead_of h (append_eq_ofNat _ k) (decodeRead_unmapped1E00 a k)
  | rdUnmapped1F00 a k => exact decode_encodeRead_of h (append_eq_ofNat _ k) (decodeRead_unmapped1F00 a k)
  | rdVector a k => exact decode_encodeRead_of h (append_eq_ofNat _ k) (decodeRead_vector a k)
  | rdGprA0 a k => exact decode_encodeRead_of h (append_eq_ofNat _ k) (decodeRead_gprA0 a k)
  | rdGprA1 a k => exact decode_encodeRead_of h (append_eq_ofNat _ k) (decodeRead_gprA1 a k)
  | rdUnmapped1FB0 a k => exact decode_encodeRead_of h (append_eq_ofNat _ k) (decodeRead_unmapped1FB0 a k)
  | rdGprB0 a k => exact decode_encodeRead_of h (append_eq_ofNat _ k) (decodeRead_gprB0 a k)
  | rdGprB1 a k => exact decode_encodeRead_of h (append_eq_ofNat _ k) (decodeRead_gprB1 a k)
  | rdUnmapped1FF0 a k => exact decode_encodeRead_of h (append_eq_ofNat _ k) (decodeRead_unmapped1FF0 a k)
  | rdDmasrcL a | rdDmasrcM a | rdDmasrcH a | rdDmalenL a | rdDmalenH a | rdDmatgtL a
  | rdDmatgtM a | rdDmatgtH a | rdCpreload a | rdProgofsL a | rdProgofsM a | rdProgofsH a
  | rdCachelock a | rdPageL a | rdPageH a | rdPc a | rdSpeed a | rdR1F51 a
  | rdR1F52 a | rdStatus1F53 a | rdStatus1F54 a | rdStatus1F55 a | rdStatus1F56 a | rdStatus1F57 a
  | rdStatus1F58 a | rdStatus1F59 a | rdStatus1F5A a | rdStatus1F5B a | rdStatus1F5C a | rdStatus1F5D a
  | rdStatus1F5E a | rdStatus1F5F a =>
    exact decode_encodeRead h _
  | wrScratch0000 a k d => exact decode_encodeWrite_of h (append_eq_ofNat _ k) (decodeWrite_scratch0000 a k d)
  | wrScratch0800 a k d => exact decode_encodeWrite_of h (append_eq_ofNat _ k) (decodeWrite_scratch0800 a k d)
  | wrScratchOor a k d => exact decode_encodeWrite_of h (append_eq_ofNat _ k) (decodeWrite_scratchOor a k d)
  | wrScratch1000 a k d => exact decode_encodeWrite_of h (append_eq_ofNat _ k) (decodeWrite_scratch1000 a k d)
  | wrScratch1800 a k d => exact decode_encodeWrite_of h (append_eq_ofNat _ k) (decodeWrite_scratch1800 a k d)
  | wrUnmapped1C00 a k d => exact decode_encodeWrite_of h (append_eq_ofNat _ k) (decodeWrite_unmapped1C00 a k d)
  | wrUnmapped1E00 a k d => exact decode_encodeWrite_of h (append_eq_ofNat _ k) (decodeWrite_unmapped1E00 a k d)
  | wrUnmapped1F00 a k d => exact decode_encodeWrite_of h (append_eq_ofNat _ k) (decodeWrite_unmapped1F00 a k d)
  | wrVector a k d => exact decode_encodeWrite_of h (append_eq_ofNat _ k) (decodeWrite_vector a k d)
  | wrGprA0 a k d => exact decode_encodeWrite_of h (append_eq_ofNat _ k) (decodeWrite_gprA0 a k d)
  | wrGprA1 a k d => exact decode_encodeWrite_of h (append_eq_ofNat _ k) (decodeWrite_gprA1 a k d)
  | wrUnmapped1FB0 a k d => exact decode_encodeWrite_of h (append_eq_ofNat _ k) (decodeWrite_unmapped1FB0 a k d)
  | wrGprB0 a k d => exact decode_encodeWrite_of h (append_eq_ofNat _ k) (decodeWrite_gprB0 a k d)
  | wrGprB1 a k d => exact decode_encodeWrite_of h (append_eq_ofNat _ k) (decodeWrite_gprB1 a k d)
  | wrUnmapped1FF0 a k d => exact decode_encodeWrite_of h (append_eq_ofNat _ k) (decodeWrite_unmapped1FF0 a k d)
  | wrDmasrcL a d | wrDmasrcM a d | wrDmasrcH a d | wrDmalenL a d | wrDmalenH a d | wrDmatgtL a d
  | wrDmatgtM a d | wrDmatgtH a d | wrCpreload a d | wrProgofsL a d | wrProgofsM a d | wrProgofsH a d
  | wrCachelock a d | wrPageL a d | wrPageH a d | wrPc a d | wrSpeed a d | wrR1F51 a d
  | wrR1F52 a d | wrHalt a d | wrNop1F54 a d | wrSuspend0 a d | wrSuspend1 a d | wrSuspend2 a d
  | wrSuspend3 a d | wrSuspend4 a d | wrSuspend5 a d | wrSuspend6 a d | wrSuspend7 a d | wrUnsuspend a d
  | wrNop1F5E a d | wrNop1F5F a d =>
    exact decode_encodeWrite h _ d
  | romRead ctx addr => cases ctx <;> exact congrArg (fun v => Except.ok (Instr.romRead _ v)) (join24_bytes24 addr)
  | speedQuery addr => exact congrArg (fun v => Except.ok (Instr.speedQuery v)) (join24_bytes24 addr)
  | dmaStart | dmaByte | dmaDone | cloadByte | cloadDone | suspExpire | engHalt => rfl
  | engGpr i v => exact decodeEngGpr_setWidth i v
  | engFill p => exact decodeEngFill_setWidth p
  | engPage b => cases b <;> rfl
  | engBus acc =>
    cases acc with
    | read addr => exact congrArg (fun v => Except.ok (Instr.engBus (.read v))) (join24_bytes24 addr)
    | write addr d => exact congrArg (fun v => Except.ok (Instr.engBus (.write v d))) (join24_bytes24 addr)

/-- Settles O1: each row's fixed and freed bits put together lie in that row's band of the decoder; the other ports' fields are cut
out of the bytes they were put into. -/
theorem encodeThenDecode : Obligations.EncodeThenDecode := fun _ => decode_encode

/-- Settles O4: each word by running the decoder on it. -/
theorem wordsDecode : Obligations.WordsDecode := ⟨rfl, rfl, rfl, rfl, rfl, rfl, rfl, rfl⟩

/-! ## Decoding, then encoding: the window -/

theorem access_decodeReadRegister (a : Access) (r : BitVec 5) : (decodeReadRegister a r).access? = some a := by
  fun_cases decodeReadRegister a r <;> rfl

theorem access_decodeWriteRegister (a : Access) (r : BitVec 5) (d : Byte) : (decodeWriteRegister a r d).access? = some a := by
  fun_cases decodeWriteRegister a r d <;> rfl

theorem access_decodeRead (a : Access) (o : Offset) : (decodeRead a o).access? = some a := by
  fun_cases decodeRead a o with
  | case9 => -- the register block
    exact access_decodeReadRegister a _
  | _ => rfl

theorem access_decodeWrite (a : Access) (o : Offset) (d : Byte) : (decodeWrite a o d).access? = some a := by
  fun_cases decodeWrite a o d with
  | case9 => -- the register block
    exact access_decodeWriteRegister a _ d
  | _ => rfl

theorem wellFormed_of_access {i : Instr} {a : Access} (h : i.access? = some a) : i.wellFormed = a.wellFormed := by
  rw [Instr.wellFormed, h]

/-- The offset of register `n` of the register block, which begins at 0x1F40. -/
theorem register_offset {r : BitVec 5} {n : Nat} (h : r.toNat = n) : BitVec.ofNat 13 (0x1F40 + n) = 0b11111010#8 ++ r := by
  rw [append_eq_ofNat, h]
  rfl

theorem encode_decodeReadRegister (a : Access) (r : BitVec 5) :
    encode (decodeReadRegister a r) = encodeRead a (0b11111010#8 ++ r) := by
  fun_cases decodeReadRegister a r with
  | case32 =>
    have h31 : r.toNat = 31 := by simp only [imp_false] at *; omega
    exact congrArg (encodeRead a) (register_offset h31)
  | _ => exact congrArg (encodeRead a) (register_offset ‹_›)

theorem encode_decodeWriteRegister (a : Access) (r : BitVec 5) (d : Byte) :
    encode (decodeWriteRegister a r d) = encodeWrite a (0b11111010#8 ++ r) d := by
  fun_cases decodeWriteRegister a r d with
  | case32 =>
    have h31 : r.toNat = 31 := by simp only [imp_false] at *; omega
    exact congrArg (encodeWrite a · d) (register_offset h31)
  | _ => exact congrArg (encodeWrite a · d) (register_offset ‹_›)

theorem encode_decodeRead (a : Access) (o : Offset) : encode (decodeRead a o) = encodeRead a o := by
  fun_cases decodeRead a o with
  | case9 => -- the register block
    exact (encode_decodeReadRegister a _).trans (congrArg (encodeRead a) (append_low (by omega) (by omega)))
  | _ => exact congrArg (encodeRead a) (append_low (by omega) (by omega))

theorem encode_decodeWrite (a : Access) (o : Offset) (d : Byte) : encode (decodeWrite a o d) = encodeWrite a o d := by
  fun_cases decodeWrite a o d with
  | case9 => -- the register block
    exact (encode_decodeWriteRegister a _ d).trans (congrArg (encodeWrite a · d) (append_low (by omega) (by omega)))
  | _ => exact congrArg (encodeWrite a · d) (append_low (by omega) (by omega))

theorem encode_of_decodeWindow {k0 k1 bank : Byte} {data : Option Byte} {i : Instr}
    (h : decodeWindow (join16 k0 k1) bank data = .ok i) :
    i.wellFormed = true ∧ encode i = ⟨.window, [k0, k1, bank] ++ data.toList⟩ := by
  simp only [decodeWindow] at h
  split at h
  · cases h
  next hreserved =>
  split at h
  · cases h
  next hwindow =>
  have hkey := windowKey_of_fields (eq_false_of_ne_true hreserved)
  rw [Bool.not_eq_true', Bool.not_eq_false] at hwindow
  split at h
  · next hw =>
    cases h
    refine ⟨by rw [wellFormed_of_access (access_decodeRead _ _), hwindow], ?_⟩
    rw [encode_decodeRead, encodeRead, ← hw, hkey, bytes16_join16]
    rfl
  · next hw =>
    cases h
    refine ⟨by rw [wellFormed_of_access (access_decodeWrite _ _ _), hwindow], ?_⟩
    rw [encode_decodeWrite, encodeWrite, ← hw, hkey, bytes16_join16]
    rfl
  · cases h

/-! ## Decoding, then encoding: the other ports -/

theorem decodeBit_eq_ok {b : Byte} {f : Bool → Instr} {i : Instr} (h : decodeBit b f = .ok i) :
    ∃ x, b = (if x then 1 else 0) ∧ i = f x := by
  unfold decodeBit at h
  split at h
  · next hb => exact ⟨false, hb, (Except.ok.inj h).symm⟩
  · split at h
    · next hb => exact ⟨true, hb, (Except.ok.inj h).symm⟩
    · cases h

theorem encode_of_decodeRom {bs : List Byte} {i : Instr} (h : decodeRom bs = .ok i) :
    i.wellFormed = true ∧ encode i = ⟨.rom, bs⟩ := by
  unfold decodeRom at h
  split at h
  · obtain ⟨x, rfl, rfl⟩ := decodeBit_eq_ok h
    exact ⟨rfl, by cases x <;> simp [encode, bytes24_join24]⟩
  · cases h

theorem encode_of_decodeSpeed {bs : List Byte} {i : Instr} (h : decodeSpeed bs = .ok i) :
    i.wellFormed = true ∧ encode i = ⟨.speed, bs⟩ := by
  unfold decodeSpeed at h
  split at h
  · cases h
    exact ⟨rfl, by simp [encode, bytes24_join24]⟩
  · cases h

theorem encode_of_decodeStep {bs : List Byte} {i : Instr} (h : decodeStep bs = .ok i) :
    i.wellFormed = true ∧ encode i = ⟨.step, bs⟩ := by
  fun_cases decodeStep bs with
  | case1 | case2 | case3 | case4 | case5 | case6 => -- the six kinds
    cases h
    exact ⟨rfl, rfl⟩
  | case7 | case8 => -- refused
    simp_all [decodeStep]

/-- A value below `2 ^ w` is its own `w` low bits. -/
theorem setWidth_low {v w : Nat} {x : BitVec v} (h : x.toNat < 2 ^ w) : (x.extractLsb' 0 w).setWidth v = x := by
  apply BitVec.eq_of_toNat_eq
  rw [BitVec.toNat_setWidth, BitVec.extractLsb'_toNat, Nat.shiftRight_zero, Nat.mod_eq_of_lt h, Nat.mod_eq_of_lt x.isLt]

theorem encode_of_decodeEngGpr {r v0 v1 v2 : Byte} {i : Instr} (h : decodeEngGpr r v0 v1 v2 = .ok i) :
    i.wellFormed = true ∧ encode i = ⟨.event, [1, r, v0, v1, v2]⟩ := by
  unfold decodeEngGpr at h
  split at h
  · next hr =>
    cases h
    have hlt : r.toNat < 2 ^ 4 := by
      have : (r.extractLsb' 4 4).toNat = 0 := congrArg BitVec.toNat hr
      simp only [BitVec.extractLsb'_toNat, Nat.shiftRight_eq_div_pow] at this
      omega
    exact ⟨rfl, by simp [encode, bytes24_join24, setWidth_low hlt]⟩
  · cases h

theorem encode_of_decodeEngFill {p0 p1 : Byte} {i : Instr} (h : decodeEngFill p0 p1 = .ok i) :
    i.wellFormed = true ∧ encode i = ⟨.event, [2, p0, p1]⟩ := by
  unfold decodeEngFill at h
  split at h
  · cases h
  · next hp =>
    cases h
    have hmsb : (join16 p0 p1).msb = false := by
      rw [join16, BitVec.msb_append]
      exact eq_false_of_ne_true hp
    exact ⟨rfl, by simp [encode, bytes16_join16, setWidth_low (BitVec.toNat_lt_of_msb_false hmsb)]⟩

theorem encode_of_decodeEngBus {bs : List Byte} {i : Instr} (h : decodeEngBus bs = .ok i) :
    i.wellFormed = true ∧ encode i = ⟨.event, 4 :: bs⟩ := by
  fun_cases decodeEngBus bs with
  | case1 | case3 => -- a read, a write
    cases h
    exact ⟨rfl, by simp [encode, bytes24_join24]⟩
  | case2 | case4 | case5 => -- refused
    simp_all [decodeEngBus]

theorem encode_of_decodeEvent {bs : List Byte} {i : Instr} (h : decodeEvent bs = .ok i) :
    i.wellFormed = true ∧ encode i = ⟨.event, bs⟩ := by
  fun_cases decodeEvent bs with
  | case2 => -- ENG-HALT
    cases h
    exact ⟨rfl, rfl⟩
  | case4 => exact encode_of_decodeEngGpr h
  | case6 => exact encode_of_decodeEngFill h
  | case8 k => -- ENG-PAGE
    obtain ⟨x, rfl, rfl⟩ := decodeBit_eq_ok (b := k) (f := fun x => .engPage (Bank.ofBit x)) h
    cases x <;> exact ⟨rfl, rfl⟩
  | case10 => exact encode_of_decodeEngBus h
  | case1 | case3 | case5 | case7 | case9 | case11 => -- refused
    simp_all [decodeEvent]

/-- Every port's decoder answers only instructions whose words are the bytes it was given. -/
theorem encode_of_decode {x : Txn} {i : Instr} (h : decode x = .ok i) : i.wellFormed = true ∧ encode i = x := by
  obtain ⟨port, bytes⟩ := x
  cases port with
  | window =>
    simp only [decode] at h
    split at h
    · exact encode_of_decodeWindow h
    · exact encode_of_decodeWindow h
    · cases h
  | rom => exact encode_of_decodeRom h
  | speed => exact encode_of_decodeSpeed h
  | step => exact encode_of_decodeStep h
  | event => exact encode_of_decodeEvent h

/-- Settles O2: port by port, the bytes are the words of the instruction the decoder answers. -/
theorem decodeThenEncode : Obligations.DecodeThenEncode := fun _ _ => encode_of_decode

/-! ## The rows of the opcode table tile the window keys -/

/-- The number of low key bits a row's mask frees. -/
def WindowRow.freeBits (r : WindowRow) : Nat := (2 ^ 14 - r.mask.toNat).log2

/-- The rows cover the keys from `lo` up to `hi` in order, each key once: a row's mask frees the low bits only, and the row begins
where the one before it ends. -/
def tile : Nat → List WindowRow → Nat → Bool
  | lo, [], hi => lo == hi
  | lo, r :: rs, hi =>
    r.mask == BitVec.allOnes 14 <<< r.freeBits && r.pattern.toNat == lo && lo % 2 ^ r.freeBits == 0 &&
      tile (lo + 2 ^ r.freeBits) rs hi

theorem windowRows_tile : tile 0 windowRows (2 ^ 14) = true := by decide

/-- A row whose mask frees the `k` low bits matches the keys that agree with its pattern above them. -/
theorem WindowRow.matches_iff {r : WindowRow} {k : Nat} (hm : r.mask = BitVec.allOnes 14 <<< k) (key : BitVec 14) :
    r.matches key = true ↔ key.toNat / 2 ^ k * 2 ^ k = r.pattern.toNat := by
  have hlt : key.toNat / 2 ^ k * 2 ^ k < 2 ^ 14 := (Nat.div_mul_le_self ..).trans_lt key.isLt
  rw [WindowRow.matches, hm, beq_iff_eq, ← BitVec.shiftLeft_ushiftRight, ← BitVec.toNat_inj, BitVec.toNat_shiftLeft,
    BitVec.toNat_ushiftRight, Nat.shiftRight_eq_div_pow, Nat.shiftLeft_eq, Nat.mod_eq_of_lt hlt]

/-- The first row of a tiling matches one interval of keys, and the rest tiles what follows. -/
theorem tile_cons {lo hi : Nat} {r : WindowRow} {rs : List WindowRow} (h : tile lo (r :: rs) hi = true) :
    (∀ key, r.matches key = true ↔ lo ≤ key.toNat ∧ key.toNat < lo + 2 ^ r.freeBits) ∧
      tile (lo + 2 ^ r.freeBits) rs hi = true := by
  simp only [tile, Bool.and_eq_true, beq_iff_eq] at h
  obtain ⟨⟨⟨hm, hp⟩, hlo⟩, hrs⟩ := h
  refine ⟨fun key => ?_, hrs⟩
  rw [WindowRow.matches_iff hm, hp]
  constructor
  · rintro rfl
    exact ⟨Nat.div_mul_le_self .., Nat.lt_div_mul_add (Nat.two_pow_pos _)⟩
  · rintro ⟨hle, hlt⟩
    obtain ⟨q, rfl⟩ := Nat.dvd_of_mod_eq_zero hlo
    rw [Nat.div_eq_of_lt_le (k := q) (by rwa [Nat.mul_comm]) (by rw [Nat.succ_mul, Nat.mul_comm]; exact hlt), Nat.mul_comm]

theorem filter_eq_nil_of_lt_tile {key : BitVec 14} {rows : List WindowRow} {lo hi : Nat} (h : tile lo rows hi = true)
    (hkey : key.toNat < lo) : rows.filter (·.matches key) = [] := by
  induction rows generalizing lo with
  | nil => rfl
  | cons r rs ih =>
    obtain ⟨hr, hrs⟩ := tile_cons h
    rw [List.filter_cons_of_neg (by rw [hr]; omega), ih hrs (Nat.lt_add_right _ hkey)]

theorem filter_eq_singleton_of_tile {key : BitVec 14} {rows : List WindowRow} {lo hi : Nat} (h : tile lo rows hi = true)
    (hlo : lo ≤ key.toNat) (hhi : key.toNat < hi) : ∃ r, rows.filter (·.matches key) = [r] := by
  induction rows generalizing lo with
  | nil => exact absurd (beq_iff_eq.1 h) (by omega)
  | cons r rs ih =>
    obtain ⟨hr, hrs⟩ := tile_cons h
    by_cases hkey : key.toNat < lo + 2 ^ r.freeBits
    · exact ⟨r, by rw [List.filter_cons_of_pos (by rw [hr]; exact ⟨hlo, hkey⟩), filter_eq_nil_of_lt_tile hrs hkey]⟩
    · obtain ⟨r', hr'⟩ := ih hrs (by omega)
      exact ⟨r', by rw [List.filter_cons_of_neg (by rw [hr]; omega), hr']⟩

/-! ## The row that matches is the one the decoder reads -/

theorem toNat_ofBool_append (w : Bool) (o : Offset) : (BitVec.ofBool w ++ o).toNat = w.toNat * 2 ^ 13 + o.toNat := by
  rw [BitVec.toNat_append, ← Nat.shiftLeft_add_eq_or_of_lt o.isLt, Nat.shiftLeft_eq, BitVec.toNat_ofBool]

/-- A key that a row matches is the row's pattern with the freed bits of the offset. -/
theorem toNat_of_matches {r : WindowRow} {k : Nat} {w : Bool} {o : Offset} (hm : r.mask = BitVec.allOnes 14 <<< k) (hk : k ≤ 13)
    (h : r.matches (BitVec.ofBool w ++ o) = true) :
    w.toNat * 2 ^ 13 + o.toNat = r.pattern.toNat + (o.extractLsb' 0 k).toNat := by
  have hlow : (w.toNat * 2 ^ 13 + o.toNat) % 2 ^ k = (o.extractLsb' 0 k).toNat := by
    rw [Nat.add_mod, Nat.mod_eq_zero_of_dvd (Dvd.dvd.mul_left (pow_dvd_pow 2 hk) _), Nat.zero_add, Nat.mod_mod,
      BitVec.extractLsb'_toNat, Nat.shiftRight_zero]
  rw [← (WindowRow.matches_iff hm _).1 h, toNat_ofBool_append, ← hlow, Nat.div_add_mod']

/-- The instruction the decoder reads at an offset, in either direction. -/
def windowInstr (a : Access) (w : Bool) (o : Offset) (d : Byte) : Instr := if w then decodeWrite a o d else decodeRead a o

theorem decode_windowTxn {a : Access} (h : a.wellFormed = true) (w : Bool) (o : Offset) (d : Byte) :
    decode (windowTxn a.dbg w a.bank o d) = .ok (windowInstr a w o d) := by
  cases w with
  | false => exact decode_encodeRead h o
  | true => exact decode_encodeWrite h o d

/-- A row for a band of offsets from `base` up, whose instruction the decoder reads throughout the band. -/
theorem windowInstr_of_band {r : WindowRow} {base k : Nat} {a : Access} {w : Bool} {o : Offset} {d : Byte} (w' : Bool)
    (hd : windowInstr a w' (BitVec.ofNat 13 (base + (o.extractLsb' 0 k).toNat)) d = r.build a o d)
    (hm : r.mask = BitVec.allOnes 14 <<< k := by decide) (hp : r.pattern.toNat = w'.toNat * 2 ^ 13 + base := by decide)
    (hk : base + 2 ^ k ≤ 2 ^ 13 := by decide) (h : r.matches (BitVec.ofBool w ++ o) = true) :
    windowInstr a w o d = r.build a o d := by
  have hk13 : k ≤ 13 := (Nat.pow_le_pow_iff_right (by decide)).1 ((Nat.le_add_left ..).trans hk)
  have hkey := toNat_of_matches hm hk13 h
  have hlow := (o.extractLsb' 0 k).isLt
  have ho := o.isLt
  have hdir : w.toNat = w'.toNat := by
    have := Bool.toNat_le w
    have := Bool.toNat_le w'
    omega
  obtain rfl : w = w' := by rw [← Bool.ofNat_toNat w, hdir, Bool.ofNat_toNat]
  have hoffset : o = BitVec.ofNat 13 (base + (o.extractLsb' 0 k).toNat) := by
    apply BitVec.eq_of_toNat_eq
    rw [toNat_offset] <;> omega
  rw [← hd, ← hoffset]

/-- A row for a single offset, whose instruction the decoder reads there. -/
theorem windowInstr_of_register {r : WindowRow} {a : Access} {w : Bool} {o : Offset} {d : Byte} (hm : r.mask = BitVec.allOnes 14)
    (hd : windowInstr a (r.pattern.getLsbD 13) (r.pattern.setWidth 13) d = r.build a o d)
    (h : r.matches (BitVec.ofBool w ++ o) = true) : windowInstr a w o d = r.build a o d := by
  have hp : BitVec.ofBool w ++ o = r.pattern := by rwa [WindowRow.matches, hm, BitVec.and_allOnes, beq_iff_eq] at h
  have hw : (BitVec.ofBool w ++ o).getLsbD 13 = w := by
    rw [BitVec.getLsbD_append, BitVec.getLsbD_ofBool]
    simp
  rw [← hd, ← hp, hw, BitVec.setWidth_append_eq_right]

theorem windowInstr_of_readRow (a : Access) (w : Bool) (o : Offset) (d : Byte) :
    ∀ r ∈ readRows, r.matches (BitVec.ofBool w ++ o) = true → windowInstr a w o d = r.build a o d := by
  simp only [readRows, List.cons_append, List.nil_append, List.forall_mem_cons]
  refine ⟨windowInstr_of_band false (decodeRead_scratch0000 a _),
    windowInstr_of_band false (decodeRead_scratch0800 a _),
    windowInstr_of_band false (decodeRead_scratchOor a _),
    windowInstr_of_band false (decodeRead_scratch1000 a _),
    windowInstr_of_band false (decodeRead_scratch1800 a _),
    windowInstr_of_band false (decodeRead_unmapped1C00 a _),
    windowInstr_of_band false (decodeRead_unmapped1E00 a _),
    windowInstr_of_band false (decodeRead_unmapped1F00 a _), ?_⟩
  iterate 32 refine ⟨windowInstr_of_register rfl rfl, ?_⟩
  exact ⟨windowInstr_of_band false (decodeRead_vector a _),
    windowInstr_of_band false (decodeRead_gprA0 a _),
    windowInstr_of_band false (decodeRead_gprA1 a _),
    windowInstr_of_band false (decodeRead_unmapped1FB0 a _),
    windowInstr_of_band false (decodeRead_gprB0 a _),
    windowInstr_of_band false (decodeRead_gprB1 a _),
    windowInstr_of_band false (decodeRead_unmapped1FF0 a _), List.forall_mem_nil _⟩

theorem windowInstr_of_writeRow (a : Access) (w : Bool) (o : Offset) (d : Byte) :
    ∀ r ∈ writeRows, r.matches (BitVec.ofBool w ++ o) = true → windowInstr a w o d = r.build a o d := by
  simp only [writeRows, List.cons_append, List.nil_append, List.forall_mem_cons]
  refine ⟨windowInstr_of_band true (decodeWrite_scratch0000 a _ d),
    windowInstr_of_band true (decodeWrite_scratch0800 a _ d),
    windowInstr_of_band true (decodeWrite_scratchOor a _ d),
    windowInstr_of_band true (decodeWrite_scratch1000 a _ d),
    windowInstr_of_band true (decodeWrite_scratch1800 a _ d),
    windowInstr_of_band true (decodeWrite_unmapped1C00 a _ d),
    windowInstr_of_band true (decodeWrite_unmapped1E00 a _ d),
    windowInstr_of_band true (decodeWrite_unmapped1F00 a _ d), ?_⟩
  iterate 32 refine ⟨windowInstr_of_register rfl rfl, ?_⟩
  exact ⟨windowInstr_of_band true (decodeWrite_vector a _ d),
    windowInstr_of_band true (decodeWrite_gprA0 a _ d),
    windowInstr_of_band true (decodeWrite_gprA1 a _ d),
    windowInstr_of_band true (decodeWrite_unmapped1FB0 a _ d),
    windowInstr_of_band true (decodeWrite_gprB0 a _ d),
    windowInstr_of_band true (decodeWrite_gprB1 a _ d),
    windowInstr_of_band true (decodeWrite_unmapped1FF0 a _ d), List.forall_mem_nil _⟩

theorem windowInstr_of_row {r : WindowRow} {a : Access} {w : Bool} {o : Offset} {d : Byte} (hr : r ∈ windowRows)
    (h : r.matches (BitVec.ofBool w ++ o) = true) : windowInstr a w o d = r.build a o d :=
  (List.mem_append.1 hr).elim (windowInstr_of_readRow a w o d r · h) (windowInstr_of_writeRow a w o d r · h)

/-- Settles O3: the rows tile the keys, so that one row matches, and a row that matches is the one the decoder reads. -/
theorem oneRowPerKey : Obligations.OneRowPerKey := by
  intro a w o d ha
  obtain ⟨r, hr⟩ := filter_eq_singleton_of_tile (key := BitVec.ofBool w ++ o) windowRows_tile (Nat.zero_le _) (BitVec.isLt _)
  obtain ⟨hmem, hmatches⟩ := List.mem_filter.1 (hr ▸ List.mem_singleton_self r)
  exact ⟨r, hr, by rw [decode_windowTxn ha, windowInstr_of_row hmem hmatches]⟩

end Sys2Proof

/-! Window dispatch, scratch memory, the ROM port and the speed query (spec/40_bus_dispatch.md R100 to R116). -/

namespace Sys2Proof.Machine

/-! ## Sync, and the debug form of a window transaction -/

/-- What a window instruction does does not look at the trace: it adds its `Sync` and then other events (R101, R102). -/
theorem exec_window_trace {i : Instr} {a : Access} (h : i.access? = some a) (s : State) :
    ∃ (t : State) (ev : List BusEvent), (∀ c, .sync c ∉ ev) ∧
      ∀ tr, exec i { s with trace := tr } = .next { t with trace := tr ++ (syncEvents a ++ ev) } := by
  rcases exec_window h with ⟨f, hf⟩ | ⟨f, hf⟩ | ⟨d, rfl⟩
  · exact ⟨s, [.readData (f s.blk)], by simp, fun tr => by rw [hf, windowRead_eq]; rfl⟩
  · exact ⟨{ s with blk := f s.blk }, [], by simp, fun tr => by rw [hf, windowWrite_eq, List.append_nil]; rfl⟩
  · refine ⟨{ s with
      blk := s.blk.writeLocks d
      engineStuck := s.engineStuck && !(s.blk.halt && !(d.getLsbD 0 && d.getLsbD 1)) }, [], by simp, fun tr => ?_⟩
    simp only [exec, execWrCachelock_eq, List.append_nil]
    rfl

/-- Whatever the row, a non-debug transaction is a `Sync` and then the debug one (R103). -/
theorem exec_build_eq_debug {r : WindowRow} (hr : r ∈ windowRows) (bank : Byte) (o : Offset) (d : Byte) (s : State) :
    exec (r.build ⟨false, bank⟩ o d) s = exec (r.build ⟨true, bank⟩ o d) (s.emit (.sync .host)) := by
  revert r
  simp only [windowRows, readRows, writeRows, List.cons_append, List.nil_append, List.forall_mem_cons]
  iterate 94 refine ⟨rfl, ?_⟩
  exact List.forall_mem_nil _

theorem access_windowInstr (a : Access) (w : Bool) (o : Offset) (d : Byte) : (windowInstr a w o d).access? = some a := by
  cases w with
  | false => exact access_decodeRead a o
  | true => exact access_decodeWrite a o d

theorem extractLsb'_windowAddr (bank : Byte) (o : Offset) {start : Nat} (len : Nat) (h : 13 ≤ start) :
    (windowAddr bank o).extractLsb' start len = (bank ++ 0b011#3).extractLsb' (start - 13) len :=
  BitVec.extractLsb'_append_eq_of_le h

/-- Whether an address is in the chip window does not depend on its offset (spec/30_encoding.md R81). -/
theorem inChipWindow_windowAddr (bank : Byte) (o o' : Offset) :
    Config.inChipWindow (windowAddr bank o) = Config.inChipWindow (windowAddr bank o') := by
  simp only [Config.inChipWindow, extractLsb'_windowAddr, Nat.reduceLeDiff]

/-- Settles O21: the two keys select the same row, and the row's non-debug instruction is the debug one after a `Sync`. -/
theorem debugAccessesActTheSame : Obligations.DebugAccessesActTheSame := by
  intro w bank o d s hw
  have ha (dbg : Bool) : Access.wellFormed ⟨dbg, bank⟩ = true := by rwa [Access.wellFormed, inChipWindow_windowAddr bank 0 o]
  obtain ⟨r, hr, hdebug⟩ := oneRowPerKey ⟨true, bank⟩ w o d (ha true)
  obtain ⟨r', hr', hplain⟩ := oneRowPerKey ⟨false, bank⟩ w o d (ha false)
  obtain rfl : r = r' := List.singleton_inj.1 (hr.symm.trans hr')
  obtain ⟨hmem, hmatches⟩ := List.mem_filter.1 (hr ▸ List.mem_singleton_self r)
  have haccess : (r.build ⟨true, bank⟩ o d).access? = some ⟨true, bank⟩ := by
    rw [← windowInstr_of_row hmem hmatches, access_windowInstr]
  obtain ⟨t, ev, hev, ht⟩ := exec_window_trace haccess s
  have hplainExec : exec (r.build ⟨false, bank⟩ o d) s = .next { t with trace := s.trace ++ .sync .host :: ev } := by
    rw [exec_build_eq_debug hmem]
    refine (ht (s.trace ++ [.sync .host])).trans ?_
    rw [List.append_assoc]
    rfl
  exact ⟨_, _, _, _, ev, hdebug, hplain, ht s.trace, hplainExec, rfl, hev, rfl⟩

/-! ## No Sync outside the host's transactions -/

/-- The trace goes on from `tr` to `tr'` by events none of which is a `Sync`. -/
def AddsNoSync (tr tr' : List BusEvent) : Prop := ∃ ev, tr' = tr ++ ev ∧ ∀ c, BusEvent.sync c ∉ ev

theorem addsNoSync_refl (tr : List BusEvent) : AddsNoSync tr tr := ⟨[], by simp, by simp⟩

theorem addsNoSync_of_event {tr tr' : List BusEvent} {e : BusEvent} (h : tr' = tr ++ [e]) (he : ∀ c, e ≠ .sync c) :
    AddsNoSync tr tr' :=
  ⟨[e], h, fun c hc => he c (List.mem_singleton.1 hc).symm⟩

theorem AddsNoSync.trans {tr tr' tr'' : List BusEvent} (h : AddsNoSync tr tr') (h' : AddsNoSync tr' tr'') : AddsNoSync tr tr'' := by
  obtain ⟨ev, rfl, hev⟩ := h
  obtain ⟨ev', rfl, hev'⟩ := h'
  exact ⟨ev ++ ev', List.append_assoc .., fun c hc => (List.mem_append.1 hc).elim (hev c) (hev' c)⟩

theorem cartTaken_addsNoSync (s : State) (addr : Addr) : AddsNoSync s.trace (s.cartTaken addr).trace :=
  addsNoSync_of_event (cartTaken_trace s addr) (by simp)

theorem chipBusRead_addsNoSync {a : Addr} {v : Byte} {s s' : State} (h : chipBusRead a s = some (v, s')) :
    AddsNoSync s.trace s'.trace := by
  rcases chipBusRead_some h with ⟨_, _, _, rfl⟩ | ⟨_, _, rfl⟩
  · exact addsNoSync_refl _
  · exact cartTaken_addsNoSync s a

theorem chipBusWrite_addsNoSync {a : Addr} {v : Byte} {s s' : State} (h : chipBusWrite a v s = some s') :
    AddsNoSync s.trace s'.trace := by
  rcases chipBusWrite_some h with ⟨_, _, rfl⟩ | ⟨_, rfl⟩
  · exact addsNoSync_refl _
  · exact addsNoSync_of_event rfl (by simp)

theorem moveDmaByte_addsNoSync {s t : State} (h : moveDmaByte s = .next t) : AddsNoSync s.trace t.trace := by
  obtain ⟨v, s1, s2, hread, hwrite, rfl⟩ := moveDmaByte_next h
  rw [setBlk_trace]
  exact (chipBusRead_addsNoSync hread).trans (chipBusWrite_addsNoSync hwrite)

theorem engineBus_addsNoSync {acc : BusAccess} {s t : State} (h : engineBus acc s = .next t) : AddsNoSync s.trace t.trace := by
  rcases engineBus_next h with ⟨a, v, s1, _, hread, rfl⟩ | ⟨a, d, _, hwrite⟩
  · exact (chipBusRead_addsNoSync hread).trans (addsNoSync_of_event rfl (by simp))
  · exact chipBusWrite_addsNoSync hwrite

theorem romPassThrough_addsNoSync (s : State) (addr : Addr) : AddsNoSync s.trace (romPassThrough addr s).trace :=
  (cartTaken_addsNoSync s addr).trans (addsNoSync_of_event rfl (by simp))

/-- A host read of the ROM port: one `Sync`, and then none (R111 to R114). -/
theorem romPortRead_host_addsNoSync (s : State) (addr : Addr) :
    AddsNoSync (s.trace ++ [.sync .host]) (romPortRead .host addr s).trace := by
  simp only [romPortRead]
  split
  · exact romPassThrough_addsNoSync (s.emit (.sync .host)) addr
  · split <;> exact addsNoSync_of_event rfl (by simp)

/-- Neither a chip-side ROM read nor a speed query, a Controller step or an Engine event adds a `Sync`. -/
theorem exec_addsNoSync {i : Instr} {s t : State} (h : exec i s = .next t) (hi : i.access? = none)
    (hrom : ∀ addr, i ≠ .romRead .host addr) : AddsNoSync s.trace t.trace := by
  cases i with
  | romRead ctx addr =>
    cases h
    cases ctx with
    | host => exact absurd rfl (hrom addr)
    | chip => exact romPassThrough_addsNoSync s addr
  | speedQuery =>
    cases h
    exact addsNoSync_of_event rfl (by simp)
  | dmaStart | dmaDone | cloadDone | suspExpire =>
    obtain ⟨_, hn⟩ := whenEnabled_next.mp h
    cases hn
    exact addsNoSync_refl _
  | dmaByte =>
    obtain ⟨_, hn⟩ := whenEnabled_next.mp h
    exact moveDmaByte_addsNoSync hn
  | cloadByte =>
    obtain ⟨_, hn⟩ := whenEnabled_next.mp h
    obtain ⟨v, s1, hread, rfl⟩ := moveLoadByte_next hn
    rw [setBlk_trace]
    exact chipBusRead_addsNoSync hread
  | engHalt | engGpr =>
    simp only [exec, execEngHalt, execEngGpr] at h
    obtain ⟨_, hn⟩ := whenGranted_next.mp h
    cases hn
    exact addsNoSync_refl _
  | engFill =>
    obtain ⟨_, hn⟩ := whenGranted_next.mp h
    obtain ⟨_, _, _, rfl⟩ := requestFill_next hn
    exact addsNoSync_refl _
  | engPage =>
    simp only [exec, execEngPage] at h
    obtain ⟨_, hn⟩ := whenGranted_next.mp h
    split at hn <;> cases hn
    exact addsNoSync_refl _
  | engBus =>
    obtain ⟨_, hn⟩ := whenGranted_next.mp h
    exact engineBus_addsNoSync hn
  | _ => cases hi

theorem syncsOf_window {i : Instr} {a : Access} (h : i.access? = some a) : syncsOf i = syncEvents a := by
  simp [syncsOf, h]

theorem syncsOf_eq_nil {i : Instr} (hi : i.access? = none) (hrom : ∀ addr, i ≠ .romRead .host addr) : syncsOf i = [] := by
  unfold syncsOf
  split
  · next ha => exact absurd (hi.symm.trans ha) (by simp)
  · exact absurd rfl (hrom _)
  · rfl

theorem exec_adds_syncsOf {i : Instr} {s t : State} (h : exec i s = .next t) : AddsNoSync (s.trace ++ syncsOf i) t.trace := by
  cases hi : i.access? with
  | some a =>
    obtain ⟨u, ev, hev, hu⟩ := exec_window_trace hi s
    cases h.symm.trans (hu s.trace)
    exact ⟨ev, by rw [syncsOf_window hi, List.append_assoc], hev⟩
  | none =>
    by_cases hrom : ∃ addr, i = .romRead .host addr
    · obtain ⟨addr, rfl⟩ := hrom
      cases h
      exact romPortRead_host_addsNoSync s addr
    · have hrom' : ∀ addr, i ≠ .romRead .host addr := fun addr ha => hrom ⟨addr, ha⟩
      rw [syncsOf_eq_nil hi hrom', List.append_nil]
      exact exec_addsNoSync h hi hrom'

/-- Settles O22: the `Sync` events of an instruction come first, and what it adds after them holds none. -/
theorem syncExactlyOnce : Obligations.SyncExactlyOnce := by
  intro i s t h
  obtain ⟨ev, ht, hev⟩ := exec_adds_syncsOf h
  exact ⟨ev, ht.trans (List.append_assoc ..), hev⟩

/-! ## Scratch memory -/

theorem scratchRead_of_lt {b : Block} {x : BitVec 12} (h : x.toNat < 3072) : b.scratchRead x = Memory.read b.scratch x.toNat :=
  if_pos h

theorem scratchRead_outOfRange {b : Block} {x : BitVec 12} (h : 3072 ≤ x.toNat) : b.scratchRead x = 0 := if_neg (Nat.not_lt.2 h)

theorem scratchWrite_outOfRange {b : Block} {x : BitVec 12} (d : Byte) (h : 3072 ≤ x.toNat) : b.scratchWrite x d = b :=
  if_neg (Nat.not_lt.2 h)

theorem reads_scratch {o n : Nat} {i : Instr} {a : Access} {s : State} {x : BitVec 12} (hd : decodeRead a (BitVec.ofNat 13 o) = i)
    (he : exec i s = windowRead a (·.scratchRead x) s) (hx : x.toNat = n) (hn : n < 3072) :
    Reads o i a s (Memory.read s.blk.scratch n) := by
  subst hx
  have h := reads_of hd he
  rwa [scratchRead_of_lt hn] at h

theorem writesScratch_of {o n : Nat} {i : Instr} {a : Access} {d : Byte} {s : State} {x : BitVec 12}
    (hwf : Memory.wf 3072 s.blk.scratch) (hd : decodeWrite a (BitVec.ofNat 13 o) d = i)
    (he : exec i s = windowWrite a (·.scratchWrite x d) s) (hx : x.toNat = n) : WritesScratch o i a d s n := by
  obtain ⟨m, hm, hs⟩ := scratchWrite_eq s.blk x d
  have h := writes_of hd he
  rw [hm] at h
  exact ⟨m, h, hx ▸ (hs hwf).2⟩

/-- The scratch index of the low band, `o[11] = 0` (spec/30_encoding.md R82). -/
theorem toNat_lowIndex (i : BitVec 11) : (0b0#1 ++ i).toNat = i.toNat := (toNat_append i (by decide)).trans (by omega)

/-- The scratch index of the high band, `o[11:10] = 0b10`. -/
theorem toNat_highIndex (j : BitVec 10) : (0b10#2 ++ j).toNat = 0x0800 + j.toNat := toNat_append j (by decide)

/-- Settles O11: each band's index is below 3072, so that `ScratchRead` is the byte of the memory. -/
theorem scratchReads : Obligations.ScratchReads := by
  intro a s i j
  have hi : i.toNat < 3072 := by omega
  have hj : 0x0800 + j.toNat < 3072 := by omega
  exact ⟨reads_scratch (Nat.zero_add i.toNat ▸ decodeRead_scratch0000 a i) rfl (toNat_lowIndex i) hi,
    reads_scratch (decodeRead_scratch0800 a j) rfl (toNat_highIndex j) hj,
    reads_scratch (decodeRead_scratch1000 a i) rfl (toNat_lowIndex i) hi,
    reads_scratch (decodeRead_scratch1800 a j) rfl (toNat_highIndex j) hj⟩

/-- Settles O12: the band's index, `o[11:10] = 0b11`, is at least 3072. -/
theorem scratchOutOfRange : Obligations.ScratchOutOfRange := by
  intro a d s k
  have hx : 3072 ≤ (0b11#2 ++ k).toNat := by
    rw [toNat_append k (by decide)]
    omega
  have hread := reads_of (s := s) (f := (·.scratchRead (0b11#2 ++ k))) (decodeRead_scratchOor a k) rfl
  have hwrite := writes_of (s := s) (f := (·.scratchWrite (0b11#2 ++ k) d)) (decodeWrite_scratchOor a k d) rfl
  rw [scratchRead_outOfRange hx] at hread
  rw [scratchWrite_outOfRange d hx] at hwrite
  exact ⟨hread, hwrite⟩

/-- Settles O23: each band's write is `ScratchWrite` at that band's index. -/
theorem scratchWrites : Obligations.ScratchWrites := by
  intro a d s i j hwf
  exact ⟨writesScratch_of hwf (Nat.zero_add i.toNat ▸ decodeWrite_scratch0000 a i d) rfl (toNat_lowIndex i),
    writesScratch_of hwf (decodeWrite_scratch0800 a j d) rfl (toNat_highIndex j),
    writesScratch_of hwf (decodeWrite_scratch1000 a i d) rfl (toNat_lowIndex i),
    writesScratch_of hwf (decodeWrite_scratch1800 a j d) rfl (toNat_highIndex j)⟩

/-- Every scratch index in either half of the window's scratch space is in one of the four bands of offsets. -/
theorem scratchAlias_cases {P : Nat → Nat → Prop} (h0000 : ∀ i : BitVec 11, P i.toNat i.toNat)
    (h0800 : ∀ j : BitVec 10, P (0x0800 + j.toNat) (0x0800 + j.toNat)) (h1000 : ∀ i : BitVec 11, P (0x1000 + i.toNat) i.toNat)
    (h1800 : ∀ j : BitVec 10, P (0x1800 + j.toNat) (0x0800 + j.toNat)) {n : Nat} (hn : n < 3072) (p : Bool) :
    P (n + 0x1000 * p.toNat) n := by
  by_cases hlow : n < 0x0800
  · obtain ⟨i, rfl⟩ : ∃ i : BitVec 11, n = i.toNat := ⟨_, (BitVec.toNat_ofNatLT n hlow).symm⟩
    cases p with
    | false => exact h0000 i
    | true => exact Nat.add_comm _ _ ▸ h1000 i
  · obtain ⟨j, rfl⟩ : ∃ j : BitVec 10, n = 0x0800 + j.toNat :=
      ⟨BitVec.ofNatLT (n - 0x0800) (by omega), by rw [BitVec.toNat_ofNatLT]; omega⟩
    cases p with
    | false => exact h0800 j
    | true =>
      have h := h1800 j
      rwa [show 0x1800 + j.toNat = 0x0800 + j.toNat + 0x1000 by omega] at h

theorem exists_reads_scratch (a : Access) (s : State) {n : Nat} (hn : n < 3072) (p : Bool) :
    ∃ i, Reads (n + 0x1000 * p.toNat) i a s (Memory.read s.blk.scratch n) := by
  refine scratchAlias_cases (P := fun o n => ∃ i, Reads o i a s (Memory.read s.blk.scratch n))
    (fun i => ?_) (fun j => ?_) (fun i => ?_) (fun j => ?_) hn p
  · obtain ⟨h0000, _, _, _⟩ := scratchReads a s i 0
    exact ⟨_, h0000⟩
  · obtain ⟨_, h0800, _, _⟩ := scratchReads a s 0 j
    exact ⟨_, h0800⟩
  · obtain ⟨_, _, h1000, _⟩ := scratchReads a s i 0
    exact ⟨_, h1000⟩
  · obtain ⟨_, _, _, h1800⟩ := scratchReads a s 0 j
    exact ⟨_, h1800⟩

theorem exists_writesScratch (a : Access) (d : Byte) (s : State) {n : Nat} (hwf : Memory.wf 3072 s.blk.scratch) (hn : n < 3072)
    (p : Bool) : ∃ i, WritesScratch (n + 0x1000 * p.toNat) i a d s n := by
  refine scratchAlias_cases (P := fun o n => ∃ i, WritesScratch o i a d s n)
    (fun i => ?_) (fun j => ?_) (fun i => ?_) (fun j => ?_) hn p
  · obtain ⟨h0000, _, _, _⟩ := scratchWrites a d s i 0 hwf
    exact ⟨_, h0000⟩
  · obtain ⟨_, h0800, _, _⟩ := scratchWrites a d s 0 j hwf
    exact ⟨_, h0800⟩
  · obtain ⟨_, _, h1000, _⟩ := scratchWrites a d s i 0 hwf
    exact ⟨_, h1000⟩
  · obtain ⟨_, _, _, h1800⟩ := scratchWrites a d s 0 j hwf
    exact ⟨_, h1800⟩

/-- Settles O24: both offsets of an index reach the same byte of the memory, which after the write is the byte written. -/
theorem scratchWriteSeenByBothAliases : Obligations.ScratchWriteSeenByBothAliases := by
  intro a a' d s n p q hwf hn ha ha'
  obtain ⟨i, m, ⟨hi, hwrite⟩, hm⟩ := exists_writesScratch a d s hwf hn p
  obtain ⟨j, hj, hread⟩ := exists_reads_scratch a' (s.afterWrite a { s.blk with scratch := m }) hn q
  have hbyte : Memory.read m n = d := by rw [hm n, if_pos ⟨rfl, hn⟩]
  rw [afterWrite_blk, hbyte] at hread
  exact ⟨i, j, _, hi ha, hj ha', hwrite, hread⟩

/-! ## The ROM port and the speed query -/

theorem romPassThrough_cartReads (s : State) (addr : Addr) :
    ∃ t v, CartReads s t addr v ∧ romPassThrough addr s = t.emit (.readData v) :=
  ⟨s.cartTaken addr, s.cartAnswer addr, cartReads_cartTaken s addr, rfl⟩

/-- R112's mask as bits: bit 22 clear, and bits 15 to 5 set. -/
theorem and_vectorMask_eq_iff (a : Addr) :
    a &&& 0x40FFE0#24 = 0x00FFE0#24 ↔ a.getLsbD 22 = false ∧ a.extractLsb' 5 11 = BitVec.allOnes 11 := by
  simp only [BitVec.eq_of_getLsbD_eq_iff, Nat.forall_lt_succ_right]
  constructor <;> simp +contextual

theorem vectorWindow_iff (a : Addr) :
    vectorWindow a = true ↔ a.toNat / 0x400000 % 2 = 0 ∧ 0xFFE0 ≤ a.toNat % 0x10000 := by
  have hbit : a.toNat / 0x400000 % 2 = 0 ↔ a.getLsbD 22 = false := by
    simp [BitVec.getLsbD, Nat.testBit_eq_decide_div_mod_eq]
  have hlow : 0xFFE0 ≤ a.toNat % 0x10000 ↔ a.extractLsb' 5 11 = BitVec.allOnes 11 := by
    rw [← BitVec.toNat_inj, BitVec.extractLsb'_toNat, BitVec.toNat_allOnes, Nat.shiftRight_eq_div_pow]
    omega
  rw [hbit, hlow, vectorWindow, beq_iff_eq, and_vectorMask_eq_iff]

/-- A host read that does not pass through: the vector byte in the vector window, and 0 elsewhere (R112, R113). -/
theorem romPortRead_blocked {s : State} (addr : Addr) (h : ¬ s.blk.LetsThrough) :
    romPortRead .host addr s = (s.emit (.sync .host)).emit (.readData
      (if addr.toNat / 0x400000 % 2 = 0 ∧ 0xFFE0 ≤ addr.toNat % 0x10000 then
        s.blk.vector[addr.toNat % 32]'(Nat.mod_lt _ (by decide)) else 0)) := by
  simp only [romPortRead, emit_blk, (romPassCond_iff _).not.2 h, vectorWindow_iff, Bool.false_eq_true, if_false]
  split
  · simp
  · rfl

/-- Settles O40: who reads and `RomPassCond` choose the arm of the ROM port. -/
theorem romReads : Obligations.RomReads := by
  refine ⟨fun s addr => ?_, fun s addr h => ?_, fun s addr h => ?_⟩
  · obtain ⟨t, v, hread, ht⟩ := romPassThrough_cartReads s addr
    exact ⟨t, v, hread, congrArg _ ht⟩
  · obtain ⟨t, v, hread, ht⟩ := romPassThrough_cartReads (s.emit (.sync .host)) addr
    have hpass : romPortRead .host addr s = romPassThrough addr (s.emit (.sync .host)) := if_pos ((romPassCond_iff _).2 h)
    exact ⟨t, v, hread, congrArg _ (hpass.trans ht)⟩
  · refine (congrArg _ (romPortRead_blocked addr h)).trans ?_
    simp only [State.emit, List.append_assoc, List.cons_append, List.nil_append]

/-- Settles O41: the three cases are the branches of `Speed`. -/
theorem speedQuery : Obligations.SpeedQuery := by
  intro s addr
  refine ⟨s.blk.speedClass addr, rfl, fun hram => ?_, fun hram hrom => ?_, fun hram hrom => ?_⟩
  · rw [Block.speedClass, if_pos hram]
  · rw [Block.speedClass, hram, if_neg Bool.false_ne_true, if_pos hrom]
  · rw [Block.speedClass, hram, hrom, if_neg Bool.false_ne_true, if_neg Bool.false_ne_true]

end Sys2Proof.Machine

/-! Reads of the register file (spec/41_register_read.md): the field's byte or the number a read returns, from what the decoder and
`exec` do at the offset. -/

namespace Sys2Proof.Machine

/-! ## Reads of slots and numbers -/

theorem readsSlot_of {w o k : Nat} {i : Instr} {a : Access} {s : State} (field : Block → BitVec w)
    (hd : decodeRead a (BitVec.ofNat 13 o) = i) (he : exec i s = windowRead a (fun b => byteSlot (field b) k) s) :
    ReadsSlot o i a s (field s.blk) k :=
  ⟨_, reads_of hd he, slotIs_byteSlot _ k⟩

theorem readsNumber_of {o n : Nat} {i : Instr} {a : Access} {s : State} (f : Block → Byte)
    (hd : decodeRead a (BitVec.ofNat 13 o) = i) (he : exec i s = windowRead a f s) (hn : (f s.blk).toNat = n) :
    ReadsNumber o i a s n :=
  ⟨_, reads_of hd he, hn⟩

/-- A read of byte `m` of a GPR window: register `m div 3`, slot `m mod 3` (spec/30_encoding.md R85). -/
theorem readsSlot_gpr {o : Nat} {i : Instr} {a : Access} {s : State} (m : Fin 48) (hd : decodeRead a (BitVec.ofNat 13 o) = i)
    (he : exec i s = windowRead a (fun b => byteSlot b.gpr[gprIndex m] (gprSlot m)) s) :
    ReadsSlot o i a s (s.blk.gpr[m.val / 3]'(gprIndex m).isLt) (m.val % 3) :=
  readsSlot_of (fun b => b.gpr[gprIndex m]) hd he

/-! ## The bytes as numbers -/

theorem toNat_byteSlot {w : Nat} (f : BitVec w) (k : Nat) : (byteSlot f k).toNat = f.toNat / 2 ^ (8 * k) % 256 := by
  simp [byteSlot, Nat.shiftRight_eq_div_pow]

/-- The byte merged into a slot is read back from it, cut to the bits the field has there. -/
theorem byteSlot_mergeSlot {w : Nat} (f : BitVec w) (k : Nat) (d : Byte) :
    byteSlot (mergeSlot f k d) k = (d.setWidth (w - 8 * k)).setWidth 8 := by
  refine BitVec.eq_of_getLsbD_eq fun n hn => ?_
  rw [slotIs_byteSlot _ k n hn]
  by_cases hw : 8 * k + n < w
  · have hslot : 8 * k ≤ 8 * k + n ∧ 8 * k + n < 8 * k + 8 := by omega
    have hcut : n < w - 8 * k := by omega
    rw [slotMerged_mergeSlot f k d _ hw, if_pos hslot]
    simp [hn, hcut]
  · have hcut : ¬ n < w - 8 * k := by omega
    rw [BitVec.getLsbD_of_ge _ _ (by omega)]
    simp [hcut]

theorem toNat_flagByte (b : Bool) : (flagByte b).toNat = b.toNat := by cases b <;> rfl

theorem toNat_lockByte (l1 l0 : Bool) : (lockByte l1 l0).toNat = 2 * l1.toNat + l0.toNat := by cases l1 <;> cases l0 <;> rfl

theorem toNat_speedByte (rom ram : BitVec 3) : (speedByte rom ram).toNat = 16 * rom.toNat + ram.toNat := by
  revert rom ram
  decide

/-- The status byte by its four signals (spec/10_state.md R42). -/
theorem toNat_status (b : Block) : b.status.toNat = statusNumber b := by
  have hpack : ∀ busy running halt suspend : Bool,
      (BitVec.ofBool busy ++ BitVec.ofBool running ++ 0#4 ++ BitVec.ofBool halt ++ BitVec.ofBool suspend).toNat =
        128 * busy.toNat + 64 * running.toNat + 2 * halt.toNat + suspend.toNat := by decide
  exact hpack b.busy b.running b.halt b.suspend

/-! ## The statements -/

/-- Settles O13: every read is `byteSlot` of its field, and a window read has no effect on `S`. -/
theorem dmaRegisterReads : Obligations.DmaRegisterReads := by
  intro a s
  exact ⟨readsSlot_of (·.dmaSource) rfl rfl, readsSlot_of (·.dmaSource) rfl rfl, readsSlot_of (·.dmaSource) rfl rfl,
    readsSlot_of (·.dmaLength) rfl rfl, readsSlot_of (·.dmaLength) rfl rfl,
    readsSlot_of (·.dmaTarget) rfl rfl, readsSlot_of (·.dmaTarget) rfl rfl, readsSlot_of (·.dmaTarget) rfl rfl⟩

/-- Settles O14: four slots of their fields, and the program counter whole. -/
theorem programRegisterReads : Obligations.ProgramRegisterReads := by
  intro a s
  exact ⟨readsSlot_of (·.programOffset) rfl rfl, readsSlot_of (·.programOffset) rfl rfl, readsSlot_of (·.programOffset) rfl rfl,
    readsSlot_of (·.pageNumber) rfl rfl, readsNumber_of (·.programCounter) rfl rfl rfl⟩

theorem readsNumber_pageHigh {a : Access} {s : State} {n : Nat} (hn : (byteSlot s.blk.pageNumber 1).toNat = n) :
    ReadsNumber 0x1F4E (.rdPageH a) a s n :=
  readsNumber_of (fun b => byteSlot b.pageNumber 1) rfl rfl hn

theorem exec_wrPageH (a : Access) (d : Byte) (s : State) :
    exec (.wrPageH a d) s = .next (s.afterWrite a { s.blk with pageNumber := mergeSlot s.blk.pageNumber 1 d }) :=
  windowWrite_eq a (fun b => { b with pageNumber := mergeSlot b.pageNumber 1 d }) s

/-- Settles O15: slot 1 of the 15-bit page number has seven bits, and reads back the seven low bits of the byte merged into it. -/
theorem pageHighByteReadsSevenBits : Obligations.PageHighByteReadsSevenBits := by
  intro a a' d s
  have hread : (byteSlot s.blk.pageNumber 1).toNat = s.blk.pageNumber.toNat / 256 := by
    rw [toNat_byteSlot]
    omega
  have hback : (byteSlot (mergeSlot s.blk.pageNumber 1 d) 1).toNat = d.toNat % 128 := by
    rw [byteSlot_mergeSlot, BitVec.toNat_setWidth, BitVec.toNat_setWidth]
    omega
  exact ⟨readsNumber_pageHigh hread, _, exec_wrPageH a' d s, readsNumber_pageHigh hback⟩

/-- Settles O16: each byte is packed from one-bit or three-bit fields. -/
theorem controlByteReads : Obligations.ControlByteReads := by
  intro a s
  exact ⟨readsNumber_of (fun b => flagByte b.cachePreload) rfl rfl (toNat_flagByte _),
    readsNumber_of (fun b => lockByte b.bank1.lock b.bank0.lock) rfl rfl (toNat_lockByte _ _),
    readsNumber_of (fun b => speedByte b.romSpeed b.ramSpeed) rfl rfl (toNat_speedByte _ _),
    readsNumber_of (fun b => flagByte b.r1f51) rfl rfl (toNat_flagByte _),
    readsNumber_of (fun b => flagByte b.r1f52) rfl rfl (toNat_flagByte _)⟩

/-- A read that returns `status(S)`, at whichever alias. -/
theorem readsNumber_status {o : Nat} {i : Instr} {a : Access} {s : State} (hd : decodeRead a (BitVec.ofNat 13 o) = i)
    (he : exec i s = windowRead a (·.status) s) : ReadsNumber o i a s (statusNumber s.blk) :=
  readsNumber_of (·.status) hd he (toNat_status s.blk)

/-- Settles O17: each of the thirteen aliases decodes to a read of `status(S)`. -/
theorem statusReads : Obligations.StatusReads := by
  intro a s
  refine ⟨?_, ?_, ?_, ?_, ?_, ?_, ?_, ?_, ?_, ?_, ?_, ?_, ?_⟩ <;> exact readsNumber_status rfl rfl

/-- Settles O18: the two parts of a window are the bytes 0 to 31 and 32 to 47 of the same register bank. -/
theorem gprReads : Obligations.GprReads := by
  intro a s m k
  exact ⟨readsSlot_gpr (gprLowPart m) (decodeRead_gprA0 a m) rfl, readsSlot_gpr (gprHighPart k) (decodeRead_gprA1 a k) rfl,
    readsSlot_gpr (gprLowPart m) (decodeRead_gprB0 a m) rfl, readsSlot_gpr (gprHighPart k) (decodeRead_gprB1 a k) rfl⟩

/-- Settles O19: the vector byte, and the constant 0 in each unmapped band. -/
theorem vectorAndUnmappedReads : Obligations.VectorAndUnmappedReads := by
  intro a s vi k9 k8 k6 k4
  exact ⟨reads_of (f := (·.vector[vi.toNat])) (decodeRead_vector a vi) rfl,
    reads_of (f := fun _ => 0) (decodeRead_unmapped1C00 a k9) rfl, reads_of (f := fun _ => 0) (decodeRead_unmapped1E00 a k8) rfl,
    reads_of (f := fun _ => 0) (decodeRead_unmapped1F00 a k6) rfl, reads_of (f := fun _ => 0) (decodeRead_unmapped1FB0 a k4) rfl,
    reads_of (f := fun _ => 0) (decodeRead_unmapped1FF0 a k4) rfl⟩

end Sys2Proof.Machine

/-! Single writes of the register file (spec/42_register_write.md): what the decoder reads at the offset, and what that write
does to `S`. -/

namespace Sys2Proof.Machine

/-! ## Bits of a data byte -/

theorem getLsbD_zero_eq (d : Byte) : d.getLsbD 0 = decide (d.toNat % 2 = 1) := by
  simp [BitVec.getLsbD, Nat.testBit_eq_decide_div_mod_eq]

theorem getLsbD_one_eq (d : Byte) : d.getLsbD 1 = decide (d.toNat / 2 % 2 = 1) := by
  simp [BitVec.getLsbD, Nat.testBit_eq_decide_div_mod_eq]

/-- Both lock bits are 1 where the low two bits of the lock byte are. -/
theorem lockBits_eq (d : Byte) : (d.getLsbD 0 && d.getLsbD 1) = decide (d.toNat % 4 = 3) := by
  rw [getLsbD_zero_eq, getLsbD_one_eq, ← Bool.decide_and, decide_eq_decide]
  omega

/-! ## Writes of slots -/

theorem mergesSlot_of {w o k : Nat} {i : Instr} {a : Access} {d : Byte} {s : State} (field : Block → BitVec w)
    (store : Block → BitVec w → Block) (hd : decodeWrite a (BitVec.ofNat 13 o) d = i)
    (he : exec i s = windowWrite a (fun b => store b (mergeSlot (field b) k d)) s) :
    MergesSlot o i a d s (field s.blk) (store s.blk) k :=
  ⟨_, writes_of (f := fun b => store b (mergeSlot (field b) k d)) hd he, slotMerged_mergeSlot _ k d⟩

/-- Settles O25: every write is `mergeSlot` of its field and touches no other field. -/
theorem dmaRegisterWrites : Obligations.DmaRegisterWrites := by
  intro a d s
  have hsource {o k : Nat} {i : Instr} := mergesSlot_of (o := o) (k := k) (i := i) (a := a) (d := d) (s := s)
    (·.dmaSource) (fun b x => { b with dmaSource := x })
  have hlength {o k : Nat} {i : Instr} := mergesSlot_of (o := o) (k := k) (i := i) (a := a) (d := d) (s := s)
    (·.dmaLength) (fun b x => { b with dmaLength := x })
  have htarget {o k : Nat} {i : Instr} := mergesSlot_of (o := o) (k := k) (i := i) (a := a) (d := d) (s := s)
    (·.dmaTarget) (fun b x => { b with dmaTarget := x })
  exact ⟨hsource rfl rfl, hsource rfl rfl, hsource rfl rfl, hlength rfl rfl, hlength rfl rfl, htarget rfl rfl, htarget rfl rfl⟩

/-- Settles O27: every write is `mergeSlot` of its field; the 15-bit page number has no bit for the high bit of its second byte. -/
theorem programRegisterWrites : Obligations.ProgramRegisterWrites := by
  intro a d s
  have hoffset {o k : Nat} {i : Instr} := mergesSlot_of (o := o) (k := k) (i := i) (a := a) (d := d) (s := s)
    (·.programOffset) (fun b x => { b with programOffset := x })
  have hpage {o k : Nat} {i : Instr} := mergesSlot_of (o := o) (k := k) (i := i) (a := a) (d := d) (s := s)
    (·.pageNumber) (fun b x => { b with pageNumber := x })
  exact ⟨hoffset rfl rfl, hoffset rfl rfl, hoffset rfl rfl, hpage rfl rfl, hpage rfl rfl⟩

/-! ## Writes that store -/

theorem toNat_ramSpeedOf (d : Byte) : (ramSpeedOf d).toNat = d.toNat % 8 := by simp [ramSpeedOf]

theorem toNat_romSpeedOf (d : Byte) : (romSpeedOf d).toNat = d.toNat / 16 % 8 := by
  simp [romSpeedOf, Nat.shiftRight_eq_div_pow]

/-- Settles O31: the two speeds are the low three bits of the byte's halves, each flag is its bit 0. -/
theorem speedAndFlagWrites : Obligations.SpeedAndFlagWrites := by
  intro a d s
  refine ⟨ramSpeedOf d, romSpeedOf d, toNat_ramSpeedOf d, toNat_romSpeedOf d, ?_⟩
  rw [← getLsbD_zero_eq]
  exact ⟨writes_of (f := fun b => { b with ramSpeed := ramSpeedOf d, romSpeed := romSpeedOf d }) rfl rfl,
    writes_of (f := fun b => { b with r1f51 := d.getLsbD 0 }) rfl rfl,
    writes_of (f := fun b => { b with r1f52 := d.getLsbD 0 }) rfl rfl⟩

/-- Settles O32: neither write looks at the run state. -/
theorem haltAndUnsuspendWrites : Obligations.HaltAndUnsuspendWrites := by
  intro a d s
  exact ⟨writes_of (f := fun b => { b with halt := true }) rfl rfl, writes_of (f := fun b => { b with suspend := false }) rfl rfl⟩

/-- The count of suspend address `k` fits in its eight bits, since there are eight suspend addresses. -/
theorem toNat_suspendCount {k : Nat} (hk : k < 8) : (suspendCount k).toNat = 32 * k := by
  simp only [suspendCount, Config.suspendUnit, BitVec.toNat_ofNat]
  omega

theorem writesSuspend_of {k : Nat} {i : Instr} {a : Access} {d : Byte} {s : State} (hk : k < 8)
    (hd : decodeWrite a (BitVec.ofNat 13 (0x1F55 + k)) d = i) (he : exec i s = windowWrite a (·.suspendFor k) s) :
    WritesSuspend k i a d s :=
  ⟨suspendCount k, toNat_suspendCount hk, writes_of hd he⟩

/-- Settles O33: each of the eight addresses is `suspendFor` at its number. -/
theorem suspendWrites : Obligations.SuspendWrites := by
  intro a d s
  refine ⟨?_, ?_, ?_, ?_, ?_, ?_, ?_, ?_⟩ <;> exact writesSuspend_of (by decide) rfl rfl

/-- Settles O34: each band's instruction leaves `S` as it is. -/
theorem writesWithNoEffect : Obligations.WritesWithNoEffect := by
  intro a d s k9 k8 k6 k4
  have hnone {o : Nat} {i : Instr} := writes_of (o := o) (i := i) (a := a) (d := d) (s := s) (f := fun b => b)
  exact ⟨hnone rfl rfl, hnone rfl rfl, hnone rfl rfl, hnone (decodeWrite_unmapped1C00 a k9 d) rfl,
    hnone (decodeWrite_unmapped1E00 a k8 d) rfl, hnone (decodeWrite_unmapped1F00 a k6 d) rfl,
    hnone (decodeWrite_unmapped1FB0 a k4 d) rfl, hnone (decodeWrite_unmapped1FF0 a k4 d) rfl⟩

/-- Settles O35: the write sets one byte of the vector. -/
theorem vectorWrites : Obligations.VectorWrites := by
  intro a d s vi
  refine ⟨s.blk.vector.set vi.toNat d,
    writes_of (f := fun b => { b with vector := b.vector.set vi.toNat d }) (decodeWrite_vector a vi d) rfl, fun j hj => ?_⟩
  rw [Vector.getElem_set]
  exact if_congr eq_comm rfl rfl

/-- A write of byte `m` of a GPR window: slot `m mod 3` of register `m div 3` (spec/30_encoding.md R85). -/
theorem writesGpr_of {o : Nat} {i : Instr} {a : Access} {d : Byte} {s : State} (m : Fin 48)
    (hd : decodeWrite a (BitVec.ofNat 13 o) d = i) (he : exec i s = windowWrite a (·.writeGprByte m d) s) :
    WritesGpr o i a d s m.val := by
  refine ⟨_, writes_of hd he, fun j hj => ?_⟩
  by_cases hm : j = m.val / 3
  · subst hm
    rw [if_pos rfl]
    simpa [gprIndex, gprSlot] using slotMerged_mergeSlot s.blk.gpr[m.val / 3] (m.val % 3) d
  · rw [if_neg hm]
    exact Vector.getElem_set_ne _ _ (Ne.symm hm)

/-- Settles O36: the two parts of a window are the bytes 0 to 31 and 32 to 47 of the same register bank. -/
theorem gprWrites : Obligations.GprWrites := by
  intro a d s m k
  exact ⟨writesGpr_of (gprLowPart m) (decodeWrite_gprA0 a m d) rfl, writesGpr_of (gprHighPart k) (decodeWrite_gprA1 a k d) rfl,
    writesGpr_of (gprLowPart m) (decodeWrite_gprB0 a m d) rfl, writesGpr_of (gprHighPart k) (decodeWrite_gprB1 a k d) rfl⟩

/-! ## Writes with a trigger -/

/-- A write of the target's high byte: the store, and the trigger if Halted (R170). -/
theorem writeDmaTargetHigh_eq (b : Block) (d : Byte) : b.writeDmaTargetHigh d =
    if b.halt then
      { b with
        dmaTarget := mergeSlot b.dmaTarget 2 d
        dmaPending := true
        dmaLatch := { src := b.dmaSource, len := b.dmaLength, tgt := mergeSlot b.dmaTarget 2 d } }
    else { b with dmaTarget := mergeSlot b.dmaTarget 2 d } := rfl

/-- Settles O26: the trigger latches the registers as they are once the byte is merged. -/
theorem dmaTrigger : Obligations.DmaTrigger := by
  intro a d s
  refine ⟨mergeSlot s.blk.dmaTarget 2 d, slotMerged_mergeSlot _ 2 d, ?_⟩
  rw [← writeDmaTargetHigh_eq]
  exact writes_of (f := fun b => b.writeDmaTargetHigh d) rfl rfl

theorem toNat_entryAddress (p : BitVec 15) (d : Byte) : (entryAddress p d).toNat = p.toNat * 256 + d.toNat := by
  simp only [entryAddress, BitVec.toNat_add, BitVec.toNat_mul, BitVec.toNat_setWidth, BitVec.toNat_ofNat]
  omega

/-- A write of the program-counter byte: the store, and the run start if Halted (R178). -/
theorem writePc_eq (b : Block) (d : Byte) : b.writePc d =
    if b.halt then { b with programCounter := d, pcFull := entryAddress b.pageNumber d, halt := false, cachePage := .b0 }
    else { b with programCounter := d } := rfl

/-- Settles O30: the entry address has room for the page number and the byte. -/
theorem runStart : Obligations.RunStart := by
  intro a d s
  refine ⟨entryAddress s.blk.pageNumber d, toNat_entryAddress _ d, ?_⟩
  rw [← writePc_eq]
  exact writes_of (f := fun b => b.writePc d) rfl rfl

/-- While Halted, a lock write sets both lock bits (R175). -/
theorem writeLocks_halted {b : Block} (d : Byte) (h : b.halt = true) : b.writeLocks d =
    { b with
      bank0 := { b.bank0 with lock := decide (d.toNat % 2 = 1) }
      bank1 := { b.bank1 with lock := decide (d.toNat / 2 % 2 = 1) } } := by
  rw [Block.writeLocks, if_pos h, getLsbD_zero_eq, getLsbD_one_eq]

/-- Settles O29: the lock write's equation in either run state. -/
theorem lockWrite : Obligations.LockWrite := by
  intro a d s
  refine ⟨fun ha => decode_encodeWrite ha 0x1F4C#13 d, ?_⟩
  simp only [exec, execWrCachelock_eq, lockBits_eq]
  cases hhalt : s.blk.halt with
  | true => simp [writeLocks_halted d hhalt, hhalt]
  | false => simp [writeLocks_running d hhalt, State.afterWrite]

end Sys2Proof.Machine

/-! The preload (spec/42_register_write.md R171, spec/43_dma_cache.md R205 to R208): the write that starts it, and its run to
the end. -/

namespace Sys2Proof.Machine

/-! ## The preload -/

/-- `S` while a preload into bank `k` runs that started from `b`: `n` bytes have come, and the bank's contents are `m`. -/
def Block.preloading (b : Block) (k : Bank) (m : Memory) (n : Nat) : Block :=
  { b.setBank k { b.bank k with mem := m, valid := false } with
    cacheLoading := true
    cload :=
      { bank := k
        page := b.pageNumber
        addr := cacheSourceAddr b.programOffset b.pageNumber + BitVec.ofNat 24 n
        count := BitVec.ofNat 10 n
        fill := false } }

theorem ofBit_eq (d : Byte) : Bank.ofBit (d.getLsbD 0) = if d.toNat % 2 = 1 then .b1 else .b0 := by
  rw [getLsbD_zero_eq]
  by_cases h : d.toNat % 2 = 1 <;> simp [h, Bank.ofBit]

theorem startLoad_eq_preloading (b : Block) (k : Bank) :
    b.startLoad k b.pageNumber false = b.preloading k (b.bank k).mem 0 := by
  simp [Block.startLoad, Block.preloading]

/-- While Halted, a preload write stores its bit and starts the load of the bank it names, locked or not (R171). -/
theorem writePreload_halted {b : Block} {d : Byte} {k : Bank} (hk : k = if d.toNat % 2 = 1 then .b1 else .b0)
    (h : b.halt = true) :
    b.writePreload d = { b with cachePreload := decide (d.toNat % 2 = 1) }.preloading k (b.bank k).mem 0 := by
  rw [Block.writePreload, ofBit_eq, ← hk, getLsbD_zero_eq]
  exact (if_pos h).trans (startLoad_eq_preloading { b with cachePreload := decide (d.toNat % 2 = 1) } k)

theorem writePreload_running {b : Block} (d : Byte) (h : b.halt = false) :
    b.writePreload d = { b with cachePreload := decide (d.toNat % 2 = 1) } := by
  rw [Block.writePreload, getLsbD_zero_eq]
  exact if_neg (by simp [h])

theorem exec_wrCpreload (a : Access) (d : Byte) (s : State) :
    exec (.wrCpreload a d) s = .next (s.afterWrite a (s.blk.writePreload d)) :=
  windowWrite_eq a (fun b => b.writePreload d) s

/-- Settles O28: the run state decides whether the write starts a load. -/
theorem preloadTrigger : Obligations.PreloadTrigger := by
  intro a d s k hk
  refine ⟨cacheSourceAddr s.blk.programOffset s.blk.pageNumber, cacheSourceAddr_toNat _ _,
    fun ha => decode_encodeWrite ha 0x1F48#13 d, ?_⟩
  rw [exec_wrCpreload]
  cases hhalt : s.blk.halt with
  | true => cases k <;> simp [writePreload_halted hk hhalt, Block.preloading]
  | false => simp [writePreload_running d hhalt]

/-! ## The bytes of a preload -/

/-- The memory with the bytes of a list written one after the other from address `n` on. -/
def Memory.writeFrom : Memory → Nat → List Byte → Memory
  | m, _, [] => m
  | m, n, v :: vs => Memory.writeFrom (Memory.write m n v) (n + 1) vs

theorem Memory.read_writeFrom {size n : Nat} {m : Memory} {vs : List Byte} (hn : n + vs.length ≤ size) (h : Memory.wf size m)
    (j : Nat) : Memory.read (m.writeFrom n vs) j =
      if n ≤ j ∧ j < n + vs.length then vs.getD (j - n) 0 else Memory.read m j := by
  induction vs generalizing m n with
  | nil => exact (if_neg (by simp only [List.length_nil]; omega)).symm
  | cons v vs ih =>
    rw [List.length_cons] at hn ⊢
    rw [Memory.writeFrom, ih (by omega) (Memory.wf_write v (by omega) h), Memory.read_write h.1]
    obtain hj | rfl | hj := Nat.lt_trichotomy j n
    · rw [if_neg (by omega), if_neg (by omega), if_neg (by omega)]
    · simp
    · obtain ⟨e, rfl⟩ : ∃ e, j = n + 1 + e := ⟨j - (n + 1), by omega⟩
      rw [show n + 1 + e - n = e + 1 by omega, List.getD_cons_succ, Nat.add_sub_cancel_left, if_neg (by omega : ¬ n + 1 + e = n)]
      exact if_congr (by omega) rfl rfl

/-- A memory that is written whole reads as the bytes written. -/
theorem Memory.read_writeFrom_whole {m : Memory} {vs : List Byte} (h : Memory.wf vs.length m) (j : Nat) :
    Memory.read (m.writeFrom 0 vs) j = vs.getD j 0 := by
  rw [Memory.read_writeFrom (by omega) h]
  split
  · rfl
  · rw [Memory.read_of_size_le h (by omega), List.getD_eq_default _ _ (by omega)]
    rfl

theorem storeLoaded_preloading (b : Block) (k : Bank) (m : Memory) {n : Nat} (hn : n < 512) (v : Byte) :
    (b.preloading k m n).storeLoaded v = b.preloading k (Memory.write m n v) (n + 1) := by
  have hcount : (BitVec.ofNat 10 n).toNat = n := by rw [BitVec.toNat_ofNat]; omega
  cases k <;> simp [Block.storeLoaded, Block.preloading, hcount, BitVec.ofNat_add, BitVec.add_assoc]

theorem finishLoad_preloading (b : Block) (k : Bank) (m : Memory) (n : Nat) :
    (b.preloading k m n).finishLoad =
      { b.setBank k { b.bank k with mem := m, valid := true, page := b.pageNumber } with
        cacheLoading := false
        cload := (b.preloading k m n).cload } := by
  cases k <;> rfl

/-! ## The run of a preload -/

/-- A started preload continues while bytes are missing, with no DMA armed or active (R200, R205). -/
theorem loadMayContinue_preloading {b : Block} (k : Bank) (m : Memory) {n : Nat} (hn : n < 512) (ha : b.dmaActive = false)
    (hp : b.dmaPending = false) : (b.preloading k m n).LoadMayContinue := by
  refine ⟨rfl, ?_, ?_, fun _ hdma => ?_⟩
  · simp only [Block.preloading, BitVec.toNat_ofNat]
    omega
  · simpa [Block.preloading] using ha
  · simp [Block.preloading, hp] at hdma

theorem chipBusRead_cartridge {a : Addr} (s : State) (h : OnCartridge a) :
    chipBusRead a s = some (s.cartAnswer a, s.cartTaken a) := by
  rcases route_cases a with ⟨⟨hw, _⟩, _⟩ | ⟨_, hr⟩ | ⟨⟨hw, _⟩, _⟩
  · exact absurd hw h
  · rw [chipBusRead, hr]
  · exact absurd hw h

theorem cartAnswer_of_given {s : State} {v : Byte} {vs : List Byte} (h : s.cartIn = v :: vs) (a : Addr) : s.cartAnswer a = v := by
  rw [State.cartAnswer, h]

/-- CLOAD-BYTE of a preload takes the cartridge's next byte and stores it. -/
theorem exec_cloadByte_preloading {s : State} {b : Block} {k : Bank} {m : Memory} {n : Nat} {v : Byte} {vs : List Byte}
    (hb : s.blk = b.preloading k m n) (hn : n < 512) (ha : b.dmaActive = false) (hp : b.dmaPending = false)
    (hin : s.cartIn = v :: vs) (hcart : OnCartridge s.blk.cload.addr) :
    ∃ t, exec .cloadByte s = .next t ∧ t.blk = b.preloading k (Memory.write m n v) (n + 1) ∧ t.cartIn = vs := by
  have he : s.blk.cloadByteEnabled = true := by
    rw [cloadByteEnabled_iff, hb]
    exact loadMayContinue_preloading k m hn ha hp
  have hread : chipBusRead s.blk.cload.addr s = some (v, s.cartTaken s.blk.cload.addr) := by
    rw [chipBusRead_cartridge s hcart, cartAnswer_of_given hin]
  refine ⟨_, whenEnabled_next.mpr ⟨he, by rw [moveLoadByte, hread]⟩, ?_, ?_⟩
  · rw [setBlk_blk, cartTaken_blk, hb, storeLoaded_preloading b k m hn v]
  · rw [setBlk_cartIn, cartTaken_cartIn, hin, List.tail_cons]

/-- As many CLOAD-BYTE steps as the cartridge has bytes for store those bytes in order. -/
theorem execAll_cloadBytes {b : Block} {k : Bank} {vs rest : List Byte} (ha : b.dmaActive = false) (hp : b.dmaPending = false)
    (hcart : ∀ n < 512, OnCartridge (cacheSourceAddr b.programOffset b.pageNumber + BitVec.ofNat 24 n)) {n : Nat}
    (hn : n + vs.length ≤ 512) {m : Memory} {s : State} (hb : s.blk = b.preloading k m n) (hin : s.cartIn = vs ++ rest) :
    ∃ t, execAll (List.replicate vs.length .cloadByte) s = .next t ∧
      t.blk = b.preloading k (m.writeFrom n vs) (n + vs.length) ∧ t.cartIn = rest := by
  induction vs generalizing n m s with
  | nil => exact ⟨s, rfl, hb, hin⟩
  | cons v vs ih =>
    rw [List.length_cons] at hn
    obtain ⟨u, hu, hub, huin⟩ := exec_cloadByte_preloading hb (by omega) ha hp hin (hb ▸ hcart n (by omega))
    obtain ⟨t, ht, htb, htin⟩ := ih (by omega) hub huin
    refine ⟨t, (execAll_cons hu).trans ht, ?_, htin⟩
    rw [htb, List.length_cons, Nat.add_right_comm, Nat.add_assoc]
    rfl

theorem exec_cloadDone_preloading {s : State} {b : Block} {k : Bank} {m : Memory} (hb : s.blk = b.preloading k m 512)
    (ha : b.dmaActive = false) : exec .cloadDone s = .next (s.setBlk s.blk.finishLoad) := by
  refine whenEnabled_next.mpr ⟨?_, rfl⟩
  rw [cloadDoneEnabled_iff, hb]
  exact ⟨rfl, rfl, by simpa [Block.preloading] using ha⟩

/-- Byte `n` of a page from its address as a number (spec/43_dma_cache.md R206). -/
theorem cacheSourceAddr_add (base : BitVec 24) (p : BitVec 15) (n : Nat) :
    cacheSourceAddr base p + BitVec.ofNat 24 n = BitVec.ofNat 24 (base.toNat + p.toNat * 512 + n) := by
  apply BitVec.eq_of_toNat_eq
  rw [BitVec.toNat_add, cacheSourceAddr_toNat, BitVec.toNat_ofNat, BitVec.toNat_ofNat, ← Nat.add_mod]

/-- A preload that has started runs to its end when the cartridge has the page's 512 bytes (R205 to R207). -/
theorem execAll_preload {b : Block} {k : Bank} {m : Memory} {bytes rest : List Byte} {s : State} (ha : b.dmaActive = false)
    (hp : b.dmaPending = false)
    (hcart : ∀ n < 512, OnCartridge (cacheSourceAddr b.programOffset b.pageNumber + BitVec.ofNat 24 n))
    (hlen : bytes.length = 512) (hb : s.blk = b.preloading k m 0) (hin : s.cartIn = bytes ++ rest) :
    ∃ t, execAll (List.replicate 512 .cloadByte ++ [.cloadDone]) s = .next t ∧ t.cartIn = rest ∧
      t.blk = (b.preloading k (m.writeFrom 0 bytes) 512).finishLoad := by
  obtain ⟨t, ht, htb, htin⟩ := execAll_cloadBytes ha hp hcart (by omega) hb hin
  rw [hlen] at ht
  rw [hlen, Nat.zero_add] at htb
  refine ⟨t.setBlk t.blk.finishLoad, ?_, htin, by rw [setBlk_blk, htb]⟩
  rw [execAll_append ht, execAll_cons (exec_cloadDone_preloading htb ha), execAll_nil]

/-- Settles O60: the write starts the load, each CLOAD-BYTE stores the next of the given bytes, and CLOAD-DONE ends it; a bank of
512 bytes written whole holds exactly those bytes. -/
theorem preloadLoadsWholePage : Obligations.PreloadLoadsWholePage := by
  intro s a d k bytes rest hinv hhalt hactive hpending hk hlen hin hcart
  have hstart := exec_wrCpreload a d s
  rw [writePreload_halted hk hhalt] at hstart
  have hwf : Memory.wf bytes.length (s.blk.bank k).mem := by
    rw [hlen]
    cases k with
    | b0 => exact hinv.bank0_wf
    | b1 => exact hinv.bank1_wf
  obtain ⟨t, ht, htin, htb⟩ := execAll_preload (b := { s.blk with cachePreload := decide (d.toNat % 2 = 1) }) hactive hpending
    (fun n hn => cacheSourceAddr_add .. ▸ hcart n hn) hlen (afterWrite_blk s _ a) hin
  refine ⟨t, (s.blk.bank k).mem.writeFrom 0 bytes, (execAll_cons hstart).trans ht, htin, ?_, Memory.read_writeFrom_whole hwf⟩
  rw [htb, finishLoad_preloading]
  cases k <;> rfl

end Sys2Proof.Machine

/-! Writes of the slots of one field in any order (spec/42_register_write.md R199). -/

namespace Sys2Proof.Machine

/-! ## Slots in any order -/

/-- Merges into different slots commute. -/
theorem mergeSlot_comm {w j k : Nat} (f : BitVec w) (d e : Byte) (h : j ≠ k) :
    mergeSlot (mergeSlot f j d) k e = mergeSlot (mergeSlot f k e) j d := by
  refine BitVec.eq_of_getLsbD_eq fun n hn => ?_
  rw [slotMerged_mergeSlot _ k e n hn, slotMerged_mergeSlot _ j d n hn, slotMerged_mergeSlot _ j d n hn,
    slotMerged_mergeSlot _ k e n hn]
  by_cases hj : 8 * j ≤ n ∧ n < 8 * j + 8
  · rw [if_pos hj, if_pos hj, if_neg (by omega)]
  · rw [if_neg hj, if_neg hj]

/-- Both slots of a field of at most 16 bits: the old value is gone. -/
theorem mergeSlot_two {w : Nat} (hw : w ≤ 16) (f : BitVec w) (d0 d1 : Byte) :
    mergeSlot (mergeSlot f 0 d0) 1 d1 = (join16 d0 d1).setWidth w := by
  refine BitVec.eq_of_getLsbD_eq fun n hn => ?_
  rw [slotMerged_mergeSlot _ 1 d1 n hn, slotMerged_mergeSlot _ 0 d0 n hn, BitVec.getLsbD_setWidth, join16, BitVec.getLsbD_append]
  by_cases h : n < 8
  · rw [if_neg (by omega), if_pos (by omega)]
    simp [hn, h]
  · rw [if_pos (by omega)]
    simp [hn, h]

/-- The three slots of a 24-bit field: the old value is gone. -/
theorem mergeSlot_three (f : BitVec 24) (d0 d1 d2 : Byte) :
    mergeSlot (mergeSlot (mergeSlot f 0 d0) 1 d1) 2 d2 = join24 d0 d1 d2 := by
  refine BitVec.eq_of_getLsbD_eq fun n hn => ?_
  rw [slotMerged_mergeSlot _ 2 d2 n hn, slotMerged_mergeSlot _ 1 d1 n hn, slotMerged_mergeSlot _ 0 d0 n hn, join24,
    BitVec.getLsbD_append, BitVec.getLsbD_append]
  by_cases h : n < 8
  · rw [if_neg (by omega), if_neg (by omega), if_pos (by omega)]
    simp [h]
  · by_cases h' : n < 16
    · rw [if_neg (by omega), if_pos (by omega)]
      have : n - 8 < 8 := by omega
      simp [h, this]
    · rw [if_pos (by omega)]
      have : ¬ n - 8 < 8 := by omega
      simp [h, this, Nat.sub_sub]

theorem toNat_join16 (d0 d1 : Byte) : (join16 d0 d1).toNat = d0.toNat + 256 * d1.toNat := by
  rw [join16, BitVec.toNat_append, ← Nat.shiftLeft_add_eq_or_of_lt d0.isLt, Nat.shiftLeft_eq]
  omega

theorem toNat_join24 (d0 d1 d2 : Byte) : (join24 d0 d1 d2).toNat = d0.toNat + 256 * d1.toNat + 65536 * d2.toNat := by
  rw [join24, BitVec.toNat_append, BitVec.toNat_append, ← Nat.shiftLeft_add_eq_or_of_lt d0.isLt,
    ← Nat.shiftLeft_add_eq_or_of_lt d1.isLt, Nat.shiftLeft_eq, Nat.shiftLeft_eq]
  omega

/-- Byte `p.2` merged into slot `p.1` of `f`. -/
def mergePair {w : Nat} (f : BitVec w) (p : Nat × Byte) : BitVec w := mergeSlot f p.1 p.2

/-- `b` and `c` agree but for the part of `S` that `store` replaces. -/
def AgreeBut {β : Type} (store : Block → β → Block) (b c : Block) : Prop := ∀ x, store c x = store b x

/-- Whatever the state, `i` completes, merges byte `p.2` into slot `p.1` of `field`, and changes `S` only where `store` does. -/
def StoresSlot {w : Nat} {β : Type} (field : Block → BitVec w) (store : Block → β → Block) (i : Instr) (p : Nat × Byte) : Prop :=
  ∀ s, ∃ t, exec i s = .next t ∧ field t.blk = mergePair (field s.blk) p ∧ AgreeBut store s.blk t.blk

section
variable {w : Nat} {β : Type} {field : Block → BitVec w} {store : Block → β → Block}

theorem storesSlot_of {i : Instr} {a : Access} {p : Nat × Byte} (f : Block → Block) (he : ∀ s, exec i s = windowWrite a f s)
    (hfield : ∀ b, field (f b) = mergePair (field b) p) (hstore : ∀ b, AgreeBut store b (f b)) : StoresSlot field store i p :=
  fun s => ⟨_, (he s).trans (windowWrite_eq a f s), hfield s.blk, hstore s.blk⟩

/-- A run of slot writes merges their bytes in its own order. -/
theorem execAll_storesSlot {is : List Instr} {ps : List (Nat × Byte)} (h : List.Forall₂ (StoresSlot field store) is ps)
    (s : State) :
    ∃ t, execAll is s = .next t ∧ field t.blk = ps.foldl mergePair (field s.blk) ∧ AgreeBut store s.blk t.blk := by
  induction h generalizing s with
  | nil => exact ⟨s, rfl, rfl, fun _ => rfl⟩
  | cons hi _ ih =>
    obtain ⟨u, hu, hfield, hstore⟩ := hi s
    obtain ⟨t, ht, hfield', hstore'⟩ := ih u
    exact ⟨t, (execAll_cons hu).trans ht, by rw [hfield', hfield]; rfl, fun x => (hstore' x).trans (hstore x)⟩

/-- A run of writes to different slots leaves the same field in any order. -/
theorem execAll_storesSlot_perm {l is : List Instr} {ps : List (Nat × Byte)} (h : List.Forall₂ (StoresSlot field store) is ps)
    (hps : (ps.map Prod.fst).Nodup) (hl : l.Perm is) (s : State) :
    ∃ t, execAll l s = .next t ∧ field t.blk = ps.foldl mergePair (field s.blk) ∧ AgreeBut store s.blk t.blk := by
  obtain ⟨qs, hqs, hperm⟩ := List.perm_comp_forall₂ hl h
  obtain ⟨t, ht, hfield, hstore⟩ := execAll_storesSlot hqs s
  refine ⟨t, ht, hfield.trans (hperm.symm.foldl_eq' (fun p hp q hq f => ?_) _).symm, hstore⟩
  by_cases hpq : p = q
  · rw [hpq]
  · exact mergeSlot_comm f _ _ fun hslot => hpq (List.inj_on_of_nodup_map hps hp hq hslot)

end

/-- `field` reads exactly what `store` replaces. -/
structure IsField {w : Nat} (field : Block → BitVec w) (store : Block → BitVec w → Block) : Prop where
  field_store : ∀ b x, field (store b x) = x
  store_store : ∀ b x y, store (store b x) y = store b y
  store_field : ∀ b, store b (field b) = b

/-- A write that merges into a field and stores nothing else. -/
theorem IsField.storesSlot {w : Nat} {field : Block → BitVec w} {store : Block → BitVec w → Block} (hf : IsField field store)
    {i : Instr} {a : Access} {k : Nat} {d : Byte}
    (he : ∀ s, exec i s = windowWrite a (fun b => store b (mergeSlot (field b) k d)) s) : StoresSlot field store i (k, d) :=
  storesSlot_of (fun b => store b (mergeSlot (field b) k d)) he (fun _ => hf.field_store _ _) fun _ _ => hf.store_store _ _ _

/-- Where only the field may differ, storing the new field in the old `S` gives the new `S`. -/
theorem IsField.eq_store {w : Nat} {field : Block → BitVec w} {store : Block → BitVec w → Block} (hf : IsField field store)
    {b c : Block} (h : AgreeBut store b c) : c = store b (field c) :=
  (hf.store_field c).symm.trans (h (field c))

/-- The three slots of a 24-bit field, written once each in any order. -/
theorem execAll_threeSlots {β : Type} {field : Block → BitVec 24} {store : Block → β → Block} {i0 i1 i2 : Instr} {d0 d1 d2 : Byte}
    (h0 : StoresSlot field store i0 (0, d0)) (h1 : StoresSlot field store i1 (1, d1)) (h2 : StoresSlot field store i2 (2, d2))
    {l : List Instr} (hl : l.Perm [i0, i1, i2]) (s : State) :
    ∃ t, execAll l s = .next t ∧ (field t.blk).toNat = d0.toNat + 256 * d1.toNat + 65536 * d2.toNat ∧
      AgreeBut store s.blk t.blk := by
  obtain ⟨t, ht, hfield, hstore⟩ := execAll_storesSlot_perm (.cons h0 (.cons h1 (.cons h2 .nil))) (by simp) hl s
  refine ⟨t, ht, ?_, hstore⟩
  rw [hfield, ← toNat_join24, ← mergeSlot_three (field s.blk)]
  rfl

/-- The two slots of a field of at most 16 bits, written once each in either order. -/
theorem execAll_twoSlots {w : Nat} (hw : w ≤ 16) {β : Type} {field : Block → BitVec w} {store : Block → β → Block} {i0 i1 : Instr}
    {d0 d1 : Byte} (h0 : StoresSlot field store i0 (0, d0)) (h1 : StoresSlot field store i1 (1, d1)) {l : List Instr}
    (hl : l.Perm [i0, i1]) (s : State) :
    ∃ t, execAll l s = .next t ∧ (field t.blk).toNat = (d0.toNat + 256 * d1.toNat) % 2 ^ w ∧ AgreeBut store s.blk t.blk := by
  obtain ⟨t, ht, hfield, hstore⟩ := execAll_storesSlot_perm (.cons h0 (.cons h1 .nil)) (by simp) hl s
  refine ⟨t, ht, ?_, hstore⟩
  rw [hfield, ← toNat_join16, ← BitVec.toNat_setWidth, ← mergeSlot_two hw (field s.blk)]
  rfl

/-! ## The slots of each field -/

theorem writeDmaTargetHigh_halt (b : Block) (d : Byte) : (b.writeDmaTargetHigh d).halt = b.halt := by
  rw [writeDmaTargetHigh_eq]
  split <;> rfl

theorem writeDmaTargetHigh_dmaTarget (b : Block) (d : Byte) :
    (b.writeDmaTargetHigh d).dmaTarget = mergeSlot b.dmaTarget 2 d := by
  rw [writeDmaTargetHigh_eq]
  split <;> rfl

/-- What a write of the DMA target may change: the field, and what the trigger sets. -/
def Block.storeTarget (b : Block) (x : BitVec 24 × Bool × DmaLatch) : Block :=
  { b with dmaTarget := x.1, dmaPending := x.2.1, dmaLatch := x.2.2 }

theorem writeDmaTargetHigh_agree (b : Block) (d : Byte) : AgreeBut Block.storeTarget b (b.writeDmaTargetHigh d) := by
  rw [writeDmaTargetHigh_eq]
  split <;> exact fun _ => rfl

/-- While Halted, the high byte of the target arms a transfer to the whole new target (R170). -/
theorem writeDmaTargetHigh_halted {b : Block} (d : Byte) (h : b.halt = true) :
    (b.writeDmaTargetHigh d).dmaPending = true ∧ (b.writeDmaTargetHigh d).dmaLatch.tgt = (b.writeDmaTargetHigh d).dmaTarget := by
  rw [writeDmaTargetHigh_eq, if_pos h]
  exact ⟨rfl, rfl⟩

/-- A run that ends with one instruction: a run before it, and then that one. -/
theorem execAll_concat {l : List Instr} {i : Instr} {s t : State} (h : execAll (l ++ [i]) s = .next t) :
    ∃ u, execAll l s = .next u ∧ exec i u = .next t := by
  induction l generalizing s with
  | nil =>
    refine ⟨s, rfl, ?_⟩
    simp only [List.nil_append, execAll] at h
    split at h <;> cases h
    assumption
  | cons j l ih =>
    simp only [List.cons_append, execAll] at h ⊢
    split at h
    · exact ih h
    · cases h
    · cases h

theorem exec_wrDmatgtH (a : Access) (d : Byte) (s : State) :
    exec (.wrDmatgtH a d) s = .next (s.afterWrite a (s.blk.writeDmaTargetHigh d)) :=
  windowWrite_eq a (fun b => b.writeDmaTargetHigh d) s

/-- A run that ends Halted with the high byte of the target has armed a transfer to the whole target. -/
theorem armed_of_execAll {l : List Instr} {a : Access} {d : Byte} {s t : State} (h : execAll l s = .next t)
    (hlast : l.getLast? = some (.wrDmatgtH a d)) (hhalt : t.blk.halt = true) :
    t.blk.dmaPending = true ∧ t.blk.dmaLatch.tgt = t.blk.dmaTarget := by
  obtain ⟨l', rfl⟩ := List.getLast?_eq_some_iff.mp hlast
  obtain ⟨u, _, hu⟩ := execAll_concat h
  rw [exec_wrDmatgtH] at hu
  cases hu
  rw [afterWrite_blk, writeDmaTargetHigh_halt] at hhalt
  exact writeDmaTargetHigh_halted d hhalt

/-- Whichever of the window's two parts it is in, a write at byte `m` of GPR window A is a write of that byte (R196). -/
theorem exec_decodeWrite_gpr (a : Access) (m : Fin 48) (d : Byte) (s : State) :
    exec (decodeWrite a (BitVec.ofNat 13 (0x1F80 + m.val)) d) s = windowWrite a (·.writeGprByte m d) s := by
  by_cases hm : m.val < 32
  · obtain ⟨x, hx⟩ : ∃ x : BitVec 5, gprLowPart x = m := ⟨BitVec.ofNatLT m.val hm, by simp [gprLowPart]⟩
    subst hx
    exact congrArg (exec · s) (decodeWrite_gprA0 a x d)
  · obtain ⟨x, hx⟩ : ∃ x : BitVec 4, gprHighPart x = m :=
      ⟨BitVec.ofNatLT (m.val - 32) (by omega), by apply Fin.ext; simp [gprHighPart]; omega⟩
    subst hx
    have h := decodeWrite_gprA1 a x d
    rw [show 0x1FA0 + x.toNat = 0x1F80 + (gprHighPart x).val by simp [gprHighPart]; omega] at h
    exact congrArg (exec · s) h

theorem writeGprByte_eq (b : Block) {r k : Nat} (hr : r < 16) (hk : k < 3) (d : Byte) :
    b.writeGprByte ⟨3 * r + k, by omega⟩ d = { b with gpr := b.gpr.set r (mergeSlot b.gpr[r] k d) } := by
  have hindex : gprIndex ⟨3 * r + k, by omega⟩ = ⟨r, hr⟩ := Fin.ext (by simp only [gprIndex]; omega)
  have hslot : gprSlot ⟨3 * r + k, by omega⟩ = k := by simp only [gprSlot]; omega
  simp only [Block.writeGprByte, hindex, hslot]
  rfl

theorem isField_gpr {r : Nat} (hr : r < 16) : IsField (fun b => b.gpr[r]) fun b x => { b with gpr := b.gpr.set r x } :=
  ⟨fun _ _ => Vector.getElem_set_self _, fun _ _ _ => by simp, fun _ => by simp⟩

/-- Slot `k` of register `r`, written through GPR window A. -/
theorem storesSlot_gpr (a : Access) {r k : Nat} (hr : r < 16) (hk : k < 3) (d : Byte) :
    StoresSlot (fun b => b.gpr[r]) (fun b x => { b with gpr := b.gpr.set r x })
      (decodeWrite a (BitVec.ofNat 13 (0x1F80 + 3 * r + k)) d) (k, d) := by
  refine (isField_gpr hr).storesSlot (a := a) fun s => ?_
  have hgpr := exec_decodeWrite_gpr a ⟨3 * r + k, by omega⟩ d s
  simp only [writeGprByte_eq _ hr hk] at hgpr
  rwa [Nat.add_assoc]

/-- Settles O37: merges into different slots commute, so every order leaves what the order low to high leaves. -/
theorem slotOrderIndependence : Obligations.SlotOrderIndependence := by
  intro a d0 d1 d2 s
  refine ⟨fun l hl => ?_, fun l hl => ?_, fun l hl => ?_, fun r hr l hl => ?_, fun l hl => ?_, fun l hl => ?_⟩
  · have hf : IsField (·.dmaSource) fun b x => { b with dmaSource := x } := ⟨fun _ _ => rfl, fun _ _ _ => rfl, fun _ => rfl⟩
    obtain ⟨t, ht, hnum, hagree⟩ := execAll_threeSlots (hf.storesSlot fun _ => rfl) (hf.storesSlot fun _ => rfl)
      (hf.storesSlot fun _ => rfl) hl s
    exact ⟨t, ht, hnum, hf.eq_store hagree⟩
  · have hlow {i : Instr} {k : Nat} {d : Byte} := storesSlot_of (i := i) (a := a) (p := (k, d)) (field := (·.dmaTarget))
      (store := Block.storeTarget) fun b => { b with dmaTarget := mergeSlot b.dmaTarget k d }
    have hhigh := storesSlot_of (i := .wrDmatgtH a d2) (a := a) (p := (2, d2)) (fun b => b.writeDmaTargetHigh d2) (fun _ => rfl)
      (writeDmaTargetHigh_dmaTarget · d2) (writeDmaTargetHigh_agree · d2)
    obtain ⟨t, ht, hnum, hagree⟩ := execAll_threeSlots (hlow (fun _ => rfl) (fun _ => rfl) fun _ _ => rfl)
      (hlow (fun _ => rfl) (fun _ => rfl) fun _ _ => rfl) hhigh hl s
    have hblk := hagree (t.blk.dmaTarget, t.blk.dmaPending, t.blk.dmaLatch)
    have hhalt : t.blk.halt = s.blk.halt := (congrArg Block.halt hblk :)
    exact ⟨t, ht, hnum, hblk, fun hs hlast => armed_of_execAll ht hlast (hhalt.trans hs)⟩
  · have hf : IsField (·.programOffset) fun b x => { b with programOffset := x } := ⟨fun _ _ => rfl, fun _ _ _ => rfl, fun _ => rfl⟩
    obtain ⟨t, ht, hnum, hagree⟩ := execAll_threeSlots (hf.storesSlot fun _ => rfl) (hf.storesSlot fun _ => rfl)
      (hf.storesSlot fun _ => rfl) hl s
    exact ⟨t, ht, hnum, hf.eq_store hagree⟩
  · obtain ⟨t, ht, hnum, hagree⟩ := execAll_threeSlots (storesSlot_gpr a hr (by decide) d0) (storesSlot_gpr a hr (by decide) d1)
      (storesSlot_gpr a hr (by decide) d2) hl s
    have hblk := (isField_gpr hr).eq_store hagree
    have hgpr : t.blk.gpr = s.blk.gpr.set r t.blk.gpr[r] := congrArg Block.gpr hblk
    refine ⟨t, ht, hnum, ?_, fun j hj hne => ?_⟩
    · rwa [← hgpr] at hblk
    · rw [hgpr]
      exact Vector.getElem_set_ne _ _ hne.symm
  · have hf : IsField (·.dmaLength) fun b x => { b with dmaLength := x } := ⟨fun _ _ => rfl, fun _ _ _ => rfl, fun _ => rfl⟩
    obtain ⟨t, ht, hnum, hagree⟩ := execAll_twoSlots (Nat.le_refl 16) (hf.storesSlot fun _ => rfl) (hf.storesSlot fun _ => rfl) hl s
    exact ⟨t, ht, hnum.trans (Nat.mod_eq_of_lt (by omega)), hf.eq_store hagree⟩
  · have hf : IsField (·.pageNumber) fun b x => { b with pageNumber := x } := ⟨fun _ _ => rfl, fun _ _ _ => rfl, fun _ => rfl⟩
    obtain ⟨t, ht, hnum, hagree⟩ := execAll_twoSlots (by decide) (hf.storesSlot fun _ => rfl) (hf.storesSlot fun _ => rfl) hl s
    exact ⟨t, ht, hnum, hf.eq_store hagree⟩

end Sys2Proof.Machine

/-! Window writes while Running (spec/42_register_write.md R161). -/

namespace Sys2Proof.Machine

/-- The fields of `S` that no window write changes while Running (spec/42_register_write.md R161). -/
def Block.gated (b : Block) : (Bool × DmaLatch) × (Bool × DmaCur) × (Bool × Cload) × (BankState × BankState) × BitVec 23 × Bank :=
  ((b.dmaPending, b.dmaLatch), (b.dmaActive, b.dmaCur), (b.cacheLoading, b.cload), (b.bank0, b.bank1), b.pcFull, b.cachePage)

/-- `i` completes and leaves the gated fields as they are. -/
def KeepsGated (i : Instr) (s : State) : Prop := ∃ t, exec i s = .next t ∧ t.blk.gated = s.blk.gated

/-- The `Sync` of a window transaction comes before its effect and changes no field of `S`. -/
theorem keepsGated_of_syncFor {i : Instr} {a : Access} {s t : State} (he : exec i s = .next t)
    (ht : t.blk.gated = (s.syncFor a).blk.gated) : KeepsGated i s :=
  ⟨t, he, by rw [ht, syncFor_blk]⟩

theorem scratchWrite_gated (b : Block) (i : BitVec 12) (d : Byte) : (b.scratchWrite i d).gated = b.gated := by
  obtain ⟨m, hm, _⟩ := scratchWrite_eq b i d
  rw [hm]
  rfl

theorem writeDmaTargetHigh_gated {b : Block} (d : Byte) (h : b.halt = false) : (b.writeDmaTargetHigh d).gated = b.gated := by
  rw [writeDmaTargetHigh_eq, if_neg (by simp [h])]
  rfl

theorem writePreload_gated {b : Block} (d : Byte) (h : b.halt = false) : (b.writePreload d).gated = b.gated := by
  rw [writePreload_running d h]
  rfl

theorem writePc_gated {b : Block} (d : Byte) (h : b.halt = false) : (b.writePc d).gated = b.gated := by
  rw [writePc_eq, if_neg (by simp [h])]
  rfl

/-- The register block: the four triggers are gated (R170, R171, R175, R178), every other write stores in fields that are not. -/
theorem decodeWriteRegister_keepsGated (a : Access) (r : BitVec 5) (d : Byte) {s : State} (h : s.blk.halt = false) :
    KeepsGated (decodeWriteRegister a r d) s := by
  have h' : (s.syncFor a).blk.halt = false := by rwa [syncFor_blk]
  fun_cases decodeWriteRegister a r d with
  | case8 => -- WR_DMATGT_H
    exact keepsGated_of_syncFor rfl (writeDmaTargetHigh_gated d h')
  | case9 => -- WR_CPRELOAD
    exact keepsGated_of_syncFor rfl (writePreload_gated d h')
  | case13 => -- WR_CACHELOCK
    exact ⟨_, execWrCachelock_eq a d s, congrArg Block.gated (writeLocks_running d h)⟩
  | case16 => -- WR_PC
    exact keepsGated_of_syncFor rfl (writePc_gated d h')
  | _ => exact keepsGated_of_syncFor (a := a) rfl rfl

theorem decodeWrite_keepsGated (a : Access) (o : Offset) (d : Byte) {s : State} (h : s.blk.halt = false) :
    KeepsGated (decodeWrite a o d) s := by
  fun_cases decodeWrite a o d with
  | case1 | case2 | case3 | case4 | case5 => -- scratch space
    exact keepsGated_of_syncFor rfl (scratchWrite_gated (s.syncFor a).blk _ d)
  | case9 => -- the register block
    exact decodeWriteRegister_keepsGated a _ d h
  | _ => exact keepsGated_of_syncFor (a := a) rfl rfl

/-- Settles O38: no write changes a gated field while Running, and only a lock write while Halted frees a stuck Engine. -/
theorem gatedWritesWhileRunning : Obligations.GatedWritesWhileRunning := by
  intro a o d s ha hrun
  obtain ⟨t, ht, hgated⟩ := decodeWrite_keepsGated a o d hrun
  simp only [Block.gated, Prod.mk.injEq] at hgated
  obtain ⟨⟨hpending, hlatch⟩, ⟨hactive, hcur⟩, ⟨hloading, hcload⟩, ⟨hbank0, hbank1⟩, hpc, hpage⟩ := hgated
  have hstuck : t.engineStuck = s.engineStuck :=
    (engineStuck_of_next ht).resolve_right fun ⟨_, _, _, hhalt, _⟩ => by simp [hrun] at hhalt
  exact ⟨decodeWrite a o d, t, decode_encodeWrite ha o d, ht, hpending, hlatch, hactive, hcur, hloading, hcload, hbank0, hbank1,
    hpc, hpage, hstuck⟩

end Sys2Proof.Machine

/-! The Controller's steps (spec/43_dma_cache.md R201 to R213): what each does when it is enabled, that it is stuck when it is
not, and the refusal of control space (R211). -/

namespace Sys2Proof.Machine

/-! ## Enabled or stuck -/

theorem whenEnabled_enabled {e : Bool} (k : StepKind) (r : Result) (he : e = true) : whenEnabled e k r = r := if_pos he

theorem whenEnabled_notEnabled {e : Bool} (k : StepKind) (r : Result) (he : ¬ e = true) :
    whenEnabled e k r = .fault (.controllerStepNotEnabled k) := if_neg he

theorem exec_dmaStart {s : State} (h : s.blk.DmaMayStart) : exec .dmaStart s = .next (s.setBlk s.blk.startDma) :=
  whenEnabled_enabled .dmaStart _ ((dmaStartEnabled_iff s.blk).mpr h)

/-- Settles O42: the enabling condition is exactly `DmaMayStart`, and the 16-bit length keeps its value in 17 bits. -/
theorem dmaStart : Obligations.DmaStart := by
  intro s
  refine ⟨fun h => ⟨s.blk.dmaLatch.len.setWidth 17, ?_, exec_dmaStart h⟩,
    fun h => whenEnabled_notEnabled _ _ (mt (dmaStartEnabled_iff s.blk).mp h)⟩
  exact BitVec.toNat_setWidth_of_le (by decide)

theorem exec_dmaDone {s : State} (h : s.blk.dmaActive = true ∧ s.blk.dmaCur.remaining.toNat = 0) :
    exec .dmaDone s = .next (s.setBlk { s.blk with dmaActive := false }) :=
  whenEnabled_enabled .dmaDone _ ((dmaDoneEnabled_iff s.blk).mpr h)

theorem exec_dmaDone_stuck {s : State} (h : ¬ (s.blk.dmaActive = true ∧ s.blk.dmaCur.remaining.toNat = 0)) :
    exec .dmaDone s = .fault (.controllerStepNotEnabled .dmaDone) :=
  whenEnabled_notEnabled _ _ (mt (dmaDoneEnabled_iff s.blk).mp h)

/-- Settles O45: the two cases of DMA-DONE's enabling condition. -/
theorem dmaDone : Obligations.DmaDone := fun _ => ⟨exec_dmaDone, exec_dmaDone_stuck⟩

/-- Settles O47: the enabling condition holds; replacing the bank leaves the active bank's number alone. -/
theorem cloadDone : Obligations.CloadDone := by
  intro s hloading hcount hactive
  have hdone : exec .cloadDone s = .next (s.setBlk s.blk.finishLoad) :=
    whenEnabled_enabled .cloadDone _ ((cloadDoneEnabled_iff s.blk).mpr ⟨hloading, hcount, hactive⟩)
  rw [hdone, Block.finishLoad, setBank_cachePage]

/-- Settles O48: with `SuspendZero` at its default, only a count above 0 enables the step. -/
theorem suspendExpiry : Obligations.SuspendExpiry := fun s =>
  ⟨fun h => ⟨0, rfl, whenEnabled_enabled .suspExpire _ ((suspExpireEnabled_iff s.blk).mpr h)⟩,
    fun h => whenEnabled_notEnabled _ _ (mt (suspExpireEnabled_iff s.blk).mp h)⟩

theorem exec_dmaByte_stuck {s : State} (h : ¬ (s.blk.dmaActive = true ∧ s.blk.dmaCur.remaining.toNat ≠ 0)) :
    exec .dmaByte s = .fault (.controllerStepNotEnabled .dmaByte) :=
  whenEnabled_notEnabled _ _ (mt (dmaByteEnabled_iff s.blk).mp h)

/-- Settles O49: each of the three enabling conditions is the one the statement negates. -/
theorem controllerStepsStuckWhenNotEnabled : Obligations.ControllerStepsStuckWhenNotEnabled := fun s =>
  ⟨exec_dmaByte_stuck, fun h => whenEnabled_notEnabled _ _ (mt (cloadByteEnabled_iff s.blk).mp h),
    fun h => whenEnabled_notEnabled _ _ (mt (cloadDoneEnabled_iff s.blk).mp h)⟩

/-! ## A byte over the chip bus -/

theorem exec_dmaByte {s : State} (hactive : s.blk.dmaActive = true) (hremaining : s.blk.dmaCur.remaining.toNat ≠ 0) :
    exec .dmaByte s = moveDmaByte s :=
  whenEnabled_enabled .dmaByte _ ((dmaByteEnabled_iff s.blk).mpr ⟨hactive, hremaining⟩)

/-- With its read and its write made, DMA-BYTE completes and advances the address generator (R202). -/
theorem moveDmaByte_of_moved {s s1 s2 : State} {v : Byte} (hread : chipBusRead s.blk.dmaCur.src s = some (v, s1))
    (hwrite : chipBusWrite s.blk.dmaCur.tgt v s1 = some s2) :
    moveDmaByte s = .next (s2.setBlk { s2.blk with dmaCur := s.blk.dmaCur.advance }) := by
  have hcur : s2.blk.dmaCur = s.blk.dmaCur := by rw [chipBusWrite_blk hwrite, chipBusRead_blk hread]
  simp only [moveDmaByte, hread, hwrite, hcur]

/-- Settles O43: outside control space both accesses of the byte are made. -/
theorem dmaByte : Obligations.DmaByte := by
  intro s hwf hactive hremaining hsrc htgt
  obtain ⟨v, s1, hread, hreads⟩ := chipBusRead_ok (s := s) hsrc
  obtain ⟨s2, hwrite, hwrites⟩ := chipBusWrite_ok (v := v) (s := s1) (by rwa [chipBusRead_blk hread]) htgt
  exact ⟨v, s1, s2, s.blk.dmaCur.advance, hreads, hwrites,
    (exec_dmaByte hactive hremaining).trans (moveDmaByte_of_moved hread hwrite), advance_toNat _ hremaining⟩

theorem exec_cloadByte {s : State} (h : s.blk.LoadMayContinue) : exec .cloadByte s = moveLoadByte s :=
  whenEnabled_enabled .cloadByte _ ((cloadByteEnabled_iff s.blk).mpr h)

/-- Settles O46: the read is made, and a count below 512 is an address of the bank. -/
theorem cloadByte : Obligations.CloadByte := by
  intro s hwf hload haddr
  have ⟨_, hcount, _, _⟩ := hload
  obtain ⟨v, s1, hread, hreads⟩ := chipBusRead_ok (s := s) haddr
  refine ⟨v, s1, Memory.write (s.blk.bank s.blk.cload.bank).mem s.blk.cload.count.toNat v, s.blk.cload.addr + 1,
    s.blk.cload.count + 1, hreads, fun j => ?_, BitVec.toNat_add _ _, ?_, ?_⟩
  · rw [Memory.read_write hwf.1]
    exact if_congr (by simp [hcount]) rfl rfl
  · rw [BitVec.toNat_add]
    exact Nat.mod_eq_of_lt (by simp; omega)
  · rw [exec_cloadByte hload]
    simp only [moveLoadByte, hread, chipBusRead_blk hread]
    rfl

/-- A chip-bus write outside control space is made, whatever the form of the scratch memory. -/
theorem chipBusWrite_made {a : Addr} (v : Byte) (s : State) (h : ¬ InControlSpace a) : ∃ s', chipBusWrite a v s = some s' := by
  refine Option.ne_none_iff_exists'.mp fun hnone => ?_
  rcases route_cases a with ⟨hc, _⟩ | ⟨_, hr⟩ | ⟨_, hr⟩
  · exact h hc
  · simp [chipBusWrite_none.mp hnone] at hr
  · simp [chipBusWrite_none.mp hnone] at hr

/-! ## Control space -/

theorem chipBusRead_control {a : Addr} (s : State) (h : InControlSpace a) : chipBusRead a s = none :=
  chipBusRead_none.mpr (route_control h)

theorem chipBusWrite_control {a : Addr} (v : Byte) (s : State) (h : InControlSpace a) : chipBusWrite a v s = none :=
  chipBusWrite_none.mpr (route_control h)

theorem moveDmaByte_refused {s : State} (h : InControlSpace s.blk.dmaCur.src ∨ InControlSpace s.blk.dmaCur.tgt) :
    moveDmaByte s = .refused .dmaControlSpace := by
  unfold moveDmaByte
  split
  · rfl
  · next v s1 hread =>
    have htgt : InControlSpace s.blk.dmaCur.tgt := h.resolve_left fun hsrc => by simp [chipBusRead_control s hsrc] at hread
    rw [chipBusWrite_control v s1 htgt]

/-- The expanded form of `engineGrant` is `engineGrant` (spec/44_run_state.md R242). -/
theorem engineGrant_iff (b : Block) : b.engineGrant = true ↔ b.Granted := by
  simp only [Block.engineGrant, Block.busOwner, Block.Granted]
  cases b.halt with
  | true => simp
  | false => cases b.dmaActive <;> cases b.cacheLoading <;> simp

/-- An Engine event of an Engine that may step is the event's own effect. -/
theorem whenGranted_mayStep {f : State → Result} {s : State} (h : s.EngineMayStep) : whenGranted f s = f s :=
  whenGranted_granted ((engineGrant_iff s.blk).mpr h.1) h.2

/-- Settles O44: an access in control space is not made, and each of the three steps refuses then. -/
theorem controlSpaceIsRefused : Obligations.ControlSpaceIsRefused := by
  refine ⟨fun s hactive hremaining h => (exec_dmaByte hactive hremaining).trans (moveDmaByte_refused h),
    fun s hload h => ?_, fun s addr d hstep h => ⟨(whenGranted_mayStep hstep).trans ?_, (whenGranted_mayStep hstep).trans ?_⟩⟩
  · rw [exec_cloadByte hload, moveLoadByte, chipBusRead_control s h]
  · rw [engineBus, chipBusRead_control s h]
  · rw [engineBus, chipBusWrite_control d s h]

end Sys2Proof.Machine

/-! A whole DMA transfer (spec/43_dma_cache.md R201 to R204, R215): DMA-START, a DMA-BYTE for each byte, DMA-DONE. -/

namespace Sys2Proof.Machine

/-! ## The block during a transfer -/

/-- `S` while the transfer runs that was latched in `b`: `n` bytes have been copied, and the scratch memory is `m`. -/
def Block.transferring (b : Block) (n : Nat) (m : Memory) : Block :=
  { b with
    dmaActive := true
    dmaPending := false
    scratch := m
    dmaCur :=
      { src := b.dmaLatch.src + BitVec.ofNat 24 n
        tgt := b.dmaLatch.tgt + BitVec.ofNat 24 n
        remaining := b.dmaLatch.len.setWidth 17 - BitVec.ofNat 17 n } }

theorem startDma_eq_transferring (b : Block) : b.startDma = b.transferring 0 b.scratch := by
  simp [Block.startDma, Block.transferring]

theorem advance_transferring (b : Block) (n : Nat) (m m' : Memory) :
    { b.transferring n m with scratch := m', dmaCur := (b.transferring n m).dmaCur.advance } = b.transferring (n + 1) m' := by
  simp [Block.transferring, DmaCur.advance, BitVec.ofNat_add, BitVec.add_assoc, sub_add_eq_sub_sub]

/-- The count goes down from the latched length (R202, R204). -/
theorem remaining_transferring (b : Block) {n : Nat} (m : Memory) (hn : n ≤ b.dmaLatch.len.toNat) :
    (b.transferring n m).dmaCur.remaining.toNat = b.dmaLatch.len.toNat - n := by
  have := b.dmaLatch.len.isLt
  simp only [Block.transferring, BitVec.toNat_sub, BitVec.toNat_setWidth, BitVec.toNat_ofNat]
  omega

/-- Once its last byte is copied, ending the transfer leaves `S` changed in the pending flag, the address generator and the scratch
memory alone. -/
theorem endDma_transferring {b : Block} (n : Nat) (m : Memory) (h : b.dmaActive = false) :
    { b.transferring n m with dmaActive := false } =
      { b with dmaPending := false, dmaCur := (b.transferring n m).dmaCur, scratch := m } := by
  simp [Block.transferring, h]

/-! ## The steps of a transfer -/

theorem exec_dmaStart_transferring {s : State} (h : s.blk.DmaMayStart) :
    exec .dmaStart s = .next (s.setBlk (s.blk.transferring 0 s.blk.scratch)) := by
  rw [exec_dmaStart h, startDma_eq_transferring]

/-- DMA-BYTE of a transfer with bytes to go, its read and its write made. -/
theorem exec_dmaByte_transferring {s s1 s2 : State} {b : Block} {n : Nat} {m : Memory} {v : Byte}
    (hb : s.blk = b.transferring n m) (hn : n < b.dmaLatch.len.toNat)
    (hread : chipBusRead (b.dmaLatch.src + BitVec.ofNat 24 n) s = some (v, s1))
    (hwrite : chipBusWrite (b.dmaLatch.tgt + BitVec.ofNat 24 n) v s1 = some s2) :
    exec .dmaByte s = .next (s2.setBlk (b.transferring (n + 1) s2.blk.scratch)) := by
  have hactive : s.blk.dmaActive = true := by rw [hb]; rfl
  have hremaining : s.blk.dmaCur.remaining.toNat ≠ 0 := by
    rw [hb, remaining_transferring b m (by omega)]
    omega
  have hmoved := moveDmaByte_of_moved (s := s) (by rw [hb]; exact hread) (by rw [hb]; exact hwrite)
  have hblk : s2.blk = { b.transferring n m with scratch := s2.blk.scratch } := by
    rw [← hb, ← chipBusRead_blk hread]
    exact chipBusWrite_blk hwrite
  rw [exec_dmaByte hactive hremaining, hmoved, ← advance_transferring b n m, hb, hblk]

/-- Where no address of the transfer is in control space, every DMA-BYTE of it completes (R202, R211). -/
theorem execAll_dmaBytes {b : Block} (haddr : ∀ n < b.dmaLatch.len.toNat,
      ¬ InControlSpace (b.dmaLatch.src + BitVec.ofNat 24 n) ∧ ¬ InControlSpace (b.dmaLatch.tgt + BitVec.ofNat 24 n))
    (k : Nat) {n : Nat} (hk : n + k ≤ b.dmaLatch.len.toNat) {m : Memory} {s : State} (hb : s.blk = b.transferring n m) :
    ∃ t m', execAll (List.replicate k .dmaByte) s = .next t ∧ t.blk = b.transferring (n + k) m' := by
  induction k generalizing n m s with
  | zero => exact ⟨s, m, rfl, hb⟩
  | succ k ih =>
    obtain ⟨hsrc, htgt⟩ := haddr n (by omega)
    obtain ⟨v, s1, hread, _⟩ := chipBusRead_ok (s := s) hsrc
    obtain ⟨s2, hwrite⟩ := chipBusWrite_made v s1 htgt
    have hbyte := exec_dmaByte_transferring hb (by omega) hread hwrite
    obtain ⟨t, m', ht, htb⟩ := ih (n := n + 1) (by omega) (setBlk_blk s2 _)
    refine ⟨t, m', (execAll_cons hbyte).trans ht, ?_⟩
    rw [htb, Nat.add_right_comm, Nat.add_assoc]

/-- A transfer that may start and whose bytes have been copied ends with DMA-DONE (R201 to R203). -/
theorem execAll_transfer {s t : State} {m : Memory} (hstart : s.blk.DmaMayStart)
    (hbytes : execAll (List.replicate s.blk.dmaLatch.len.toNat .dmaByte) (s.setBlk (s.blk.transferring 0 s.blk.scratch)) = .next t)
    (htb : t.blk = s.blk.transferring s.blk.dmaLatch.len.toNat m) :
    execAll (.dmaStart :: List.replicate s.blk.dmaLatch.len.toNat .dmaByte ++ [.dmaDone]) s =
      .next (t.setBlk
        { s.blk with
          dmaPending := false
          dmaCur := (s.blk.transferring s.blk.dmaLatch.len.toNat m).dmaCur
          scratch := m }) := by
  have hnone : t.blk.dmaActive = true ∧ t.blk.dmaCur.remaining.toNat = 0 := by
    rw [htb, remaining_transferring _ _ (Nat.le_refl _)]
    exact ⟨rfl, Nat.sub_self _⟩
  have hdone := exec_dmaDone hnone
  rw [htb, endDma_transferring _ _ hstart.1] at hdone
  rw [List.cons_append, execAll_cons (exec_dmaStart_transferring hstart), execAll_append hbytes, execAll_cons hdone, execAll_nil]

/-- Settles O58: the count goes down from the length by one with each DMA-BYTE, and it alone decides whether DMA-BYTE or DMA-DONE is
enabled. -/
theorem dmaTakesExactlyItsLength : Obligations.DmaTakesExactlyItsLength := by
  intro s n hstart hn haddr
  subst hn
  have hrun (k : Nat) (hk : k ≤ s.blk.dmaLatch.len.toNat) := execAll_dmaBytes haddr k (n := 0) (by omega)
    (setBlk_blk s (s.blk.transferring 0 s.blk.scratch))
  simp only [Nat.zero_add] at hrun
  constructor
  · obtain ⟨t, m, ht, htb⟩ := hrun _ (Nat.le_refl _)
    refine ⟨_, execAll_transfer hstart ht htb, rfl, ?_, fun hzero => ?_⟩
    · exact (remaining_transferring s.blk m (Nat.le_refl _)).trans (Nat.sub_self _)
    · rw [hzero] at ht htb
      cases ht
      exact ⟨(congrArg Block.scratch htb).symm, rfl⟩
  · intro k hk
    obtain ⟨u, m, hu, hub⟩ := hrun k hk
    have hremaining := remaining_transferring s.blk m hk
    rw [← hub] at hremaining
    exact ⟨u, (execAll_cons (exec_dmaStart_transferring hstart)).trans hu,
      fun _ => exec_dmaDone_stuck fun h => by omega, fun _ => exec_dmaByte_stuck fun h => by omega⟩

/-! ## A transfer from the cartridge to scratch memory -/

theorem chipBusWrite_scratch {a : Addr} {i : Nat} (v : Byte) (s : State) (h : ReachesScratch a i) (hi : i < 3072) :
    chipBusWrite a v s = some (s.setBlk { s.blk with scratch := Memory.write s.blk.scratch i v }) := by
  obtain ⟨hw, hoff, rfl⟩ := h
  rcases route_cases a with ⟨⟨_, hc⟩, _⟩ | ⟨hw', _⟩ | ⟨_, hr⟩
  · omega
  · exact absurd hw hw'
  · simp only [chipBusWrite, hr, Block.scratchWrite, low12_toNat, Config.scratchSize, if_pos hi]

/-- DMA-BYTE of a transfer from the cartridge to scratch memory takes the cartridge's next byte and stores it. -/
theorem exec_dmaByte_cartridge {s : State} {b : Block} {n i : Nat} {m : Memory} {v : Byte} {vs : List Byte}
    (hb : s.blk = b.transferring n m) (hn : n < b.dmaLatch.len.toNat) (hsrc : OnCartridge (b.dmaLatch.src + BitVec.ofNat 24 n))
    (htgt : ReachesScratch (b.dmaLatch.tgt + BitVec.ofNat 24 n) i) (hi : i < 3072) (hin : s.cartIn = v :: vs) :
    ∃ t, exec .dmaByte s = .next t ∧ t.blk = b.transferring (n + 1) (Memory.write m i v) ∧ t.cartIn = vs := by
  have hread := chipBusRead_cartridge s hsrc
  rw [cartAnswer_of_given hin] at hread
  refine ⟨_, exec_dmaByte_transferring hb hn hread (chipBusWrite_scratch v _ htgt hi), ?_, ?_⟩
  · rw [setBlk_blk, setBlk_blk, cartTaken_blk, hb]
    rfl
  · rw [setBlk_cartIn, setBlk_cartIn, cartTaken_cartIn, hin, List.tail_cons]

/-- As many DMA-BYTE steps as the cartridge has bytes for store those bytes in order. -/
theorem execAll_dmaBytes_cartridge {b : Block} {j : Nat} {vs rest : List Byte} (hj : j + b.dmaLatch.len.toNat ≤ 3072)
    (haddr : ∀ n < b.dmaLatch.len.toNat,
      OnCartridge (b.dmaLatch.src + BitVec.ofNat 24 n) ∧ ReachesScratch (b.dmaLatch.tgt + BitVec.ofNat 24 n) (j + n))
    {n : Nat} (hn : n + vs.length ≤ b.dmaLatch.len.toNat) {m : Memory} {s : State} (hb : s.blk = b.transferring n m)
    (hin : s.cartIn = vs ++ rest) :
    ∃ t, execAll (List.replicate vs.length .dmaByte) s = .next t ∧
      t.blk = b.transferring (n + vs.length) (m.writeFrom (j + n) vs) ∧ t.cartIn = rest := by
  induction vs generalizing n m s with
  | nil => exact ⟨s, rfl, hb, hin⟩
  | cons v vs ih =>
    rw [List.length_cons] at hn
    obtain ⟨hsrc, htgt⟩ := haddr n (by omega)
    obtain ⟨u, hu, hub, huin⟩ := exec_dmaByte_cartridge hb (by omega) hsrc htgt (by omega) hin
    obtain ⟨t, ht, htb, htin⟩ := ih (by omega) hub huin
    refine ⟨t, (execAll_cons hu).trans ht, ?_, htin⟩
    rw [htb, List.length_cons, Nat.add_right_comm, Nat.add_assoc]
    rfl

/-- Settles O59: each DMA-BYTE stores the next of the given bytes at the next scratch index. -/
theorem dmaCopiesCartridgeToScratch : Obligations.DmaCopiesCartridgeToScratch := by
  intro s j bytes rest hstart hwf hlen hin hj haddr
  obtain ⟨t, ht, htb, htin⟩ := execAll_dmaBytes_cartridge (hlen ▸ hj) (hlen ▸ haddr) (n := 0) (by omega)
    (setBlk_blk s (s.blk.transferring 0 s.blk.scratch)) hin
  rw [Nat.zero_add, ← hlen] at htb
  rw [← hlen] at ht ⊢
  refine ⟨_, execAll_transfer hstart ht htb, htin, rfl, ?_⟩
  rw [hlen]
  exact Memory.read_writeFrom hj hwf

end Sys2Proof.Machine

/-! A miss with both banks locked (spec/43_dma_cache.md R209, R210): the Engine it leaves stuck, and how the host frees it. -/

namespace Sys2Proof.Machine

theorem not_pageHeld {b : Block} {p : BitVec 15} (h : b.Misses p) : ¬ b.pageHeld p = true := by
  simp [(pageHeld_eq_false_iff b p).mpr h]

/-- ENG-FILL of a page no bank holds, with both banks locked (R210). -/
theorem exec_engFill_lockedMiss {s : State} {p : BitVec 15} (hstep : s.EngineMayStep) (hmiss : s.blk.Misses p)
    (hlocked : s.blk.bank0.lock = true ∧ s.blk.bank1.lock = true) : exec (.engFill p) s = .fault (.lockedMissStuck p) := by
  have hfill : requestFill p s = .fault (.lockedMissStuck p) := by
    rw [requestFill, if_neg (not_pageHeld hmiss), (fillBank_none s.blk).mpr hlocked]
    rfl
  exact (whenGranted_mayStep hstep).trans hfill

/-- ENG-FILL of a page no bank holds, with some bank unlocked (spec/44_run_state.md R246). -/
theorem exec_engFill_starts {s : State} {p : BitVec 15} (hstep : s.EngineMayStep) (hmiss : s.blk.Misses p)
    (hunlocked : ¬ (s.blk.bank0.lock = true ∧ s.blk.bank1.lock = true)) :
    ∃ k, exec (.engFill p) s = .next (s.setBlk (s.blk.startLoad k p true)) := by
  obtain ⟨k, hk⟩ := Option.ne_none_iff_exists'.mp (mt (fillBank_none s.blk).mp hunlocked)
  refine ⟨k, (whenGranted_mayStep hstep).trans ?_⟩
  rw [requestFill, if_neg (not_pageHeld hmiss), hk]

/-- `S` after the host has halted the chip, written the lock byte `d` and started the chip again (R175, R178, R182). -/
def Block.restarted (b : Block) (d pc : Byte) : Block := ({ b with halt := true }.writeLocks d).writePc pc

theorem restarted_eq (b : Block) (d pc : Byte) : b.restarted d pc =
    { b with
      bank0 := { b.bank0 with lock := decide (d.toNat % 2 = 1) }
      bank1 := { b.bank1 with lock := decide (d.toNat / 2 % 2 = 1) }
      programCounter := pc
      pcFull := entryAddress b.pageNumber pc
      halt := false
      cachePage := .b0 } := by
  rw [Block.restarted, writeLocks_halted d rfl]
  rfl

/-- A lock write while Halted that leaves a bank unlocked frees the Engine (R210, notes/assumptions/19.md). -/
theorem exec_wrCachelock_frees {s : State} (a : Access) {d : Byte} (h : s.blk.halt = true) (hd : d.toNat % 4 ≠ 3) :
    ∃ t, exec (.wrCachelock a d) s = .next t ∧ t.engineStuck = false ∧ t.blk = s.blk.writeLocks d :=
  ⟨_, execWrCachelock_eq a d s, by simp only [lockBits_eq, h]; simp [hd], rfl⟩

theorem execAll_restart (a : Access) (x pc : Byte) {d : Byte} (hd : d.toNat % 4 ≠ 3) (s : State) :
    ∃ t, execAll [.wrHalt a x, .wrCachelock a d, .wrPc a pc] s = .next t ∧ t.engineStuck = false ∧
      t.blk = s.blk.restarted d pc := by
  have hhalt : exec (.wrHalt a x) s = .next (s.afterWrite a { s.blk with halt := true }) :=
    windowWrite_eq a (fun b => { b with halt := true }) s
  obtain ⟨u, hlock, hfree, hub⟩ := exec_wrCachelock_frees (s := s.afterWrite a { s.blk with halt := true }) a rfl hd
  have hstart : exec (.wrPc a pc) u = .next (u.afterWrite a (u.blk.writePc pc)) := windowWrite_eq a (·.writePc pc) u
  refine ⟨_, (execAll_cons hhalt).trans ((execAll_cons hlock).trans (execAll_cons hstart)), hfree, ?_⟩
  rw [afterWrite_blk, hub]
  rfl

/-- Settles O53: the locked miss sets `engineStuck`, which alone then stops a granted Engine; the restart clears it and leaves a
bank to fill. -/
theorem lockedMissRecovers : Obligations.LockedMissRecovers := by
  refine ⟨fun s p hstep hmiss h0 h1 => ⟨exec_engFill_lockedMiss hstep hmiss ⟨h0, h1⟩, fun x rest hs hd => ?_⟩,
    fun s e hgranted hstuck he => ⟨exec_engineStuck he ((engineGrant_iff s.blk).mpr hgranted) hstuck, fun x rest hs hd => ?_⟩,
    fun s p a x d pc hgranted hmiss _ _ hd => ?_⟩
  · have hfill := exec_engFill_lockedMiss (s := { s with inbox := rest }) hstep hmiss ⟨h0, h1⟩
    rw [step_stuck hs hd hfill, sticks_lockedMissStuck, Bool.or_true]
  · have hevent := exec_engineStuck (s := { s with inbox := rest }) he ((engineGrant_iff s.blk).mpr hgranted) hstuck
    rw [step_stuck hs hd hevent, sticks_engineStuck, Bool.or_false]
  · obtain ⟨t, ht, hfree, htb⟩ := execAll_restart a x pc hd s
    rw [restarted_eq] at htb
    obtain ⟨_, hgrant⟩ := hgranted
    have hunlocked : ¬ (t.blk.bank0.lock = true ∧ t.blk.bank1.lock = true) := by
      simp only [htb, decide_eq_true_eq]
      omega
    obtain ⟨k, hk⟩ := exec_engFill_starts (s := t) (p := p) ⟨htb ▸ ⟨rfl, hgrant⟩, hfree⟩ (htb ▸ hmiss) hunlocked
    exact ⟨t, _, ht, hfree, hk, rfl, rfl, rfl⟩

end Sys2Proof.Machine

/-! The Engine's events (spec/44_run_state.md R242 to R248): none without the grant, and what each does with it; then what moves the
chip between Halted and Running (R240), and what leaves the Engine stuck or frees it (spec/43_dma_cache.md R210). -/

namespace Sys2Proof.Machine

/-! ## The grant -/

/-- Without the grant an Engine event is stuck (R242). -/
theorem exec_engine_notGranted {i : Instr} {s : State} (hi : EngineEvent i) (h : ¬ s.blk.Granted) :
    exec i s = .fault .engineNotGranted := by
  have hgrant : s.blk.engineGrant = false := Bool.eq_false_of_not_eq_true (mt (engineGrant_iff s.blk).mp h)
  rcases hi with rfl | ⟨_, _, rfl⟩ | ⟨_, rfl⟩ | ⟨_, rfl⟩ | ⟨_, rfl⟩ <;>
    simp only [exec, execEngHalt, execEngGpr, execEngFill, execEngPage, execEngBus] <;> exact whenGranted_stuck hgrant

/-- Settles O50: the grant is its expanded form, and each of the five is an Engine event. -/
theorem engineNeedsGrant : Obligations.EngineNeedsGrant := fun s =>
  ⟨engineGrant_iff s.blk, fun h r v p b acc =>
    ⟨exec_engine_notGranted (.inl rfl) h, exec_engine_notGranted (.inr (.inl ⟨r, v, rfl⟩)) h,
      exec_engine_notGranted (.inr (.inr (.inl ⟨p, rfl⟩))) h, exec_engine_notGranted (.inr (.inr (.inr (.inl ⟨b, rfl⟩)))) h,
      exec_engine_notGranted (.inr (.inr (.inr (.inr ⟨acc, rfl⟩)))) h⟩⟩

/-! ## What an Engine that may step does -/

section
variable {s : State} (h : s.EngineMayStep)
include h

theorem exec_engHalt : exec .engHalt s = .next (s.setBlk { s.blk with halt := true }) := by
  rw [exec, execEngHalt, whenGranted_mayStep h]

theorem exec_engGpr (r : BitVec 4) (v : BitVec 24) :
    exec (.engGpr r v) s = .next (s.setBlk { s.blk with gpr := s.blk.gpr.set r.toNat v }) := by
  rw [exec, execEngGpr, whenGranted_mayStep h]

theorem exec_engPage (b : Bank) : exec (.engPage b) s =
    if (s.blk.bank b).valid then .next (s.setBlk { s.blk with cachePage := b }) else .fault (.engineBankInvalid b) := by
  rw [exec, execEngPage, whenGranted_mayStep h]

theorem exec_engFill (p : BitVec 15) : exec (.engFill p) s = requestFill p s := whenGranted_mayStep h

theorem exec_engBus_read {addr : Addr} {v : Byte} {t : State} (hread : chipBusRead addr s = some (v, t)) :
    exec (.engBus (.read addr)) s = .next (t.emit (.engineData v)) := by
  rw [exec, execEngBus, whenGranted_mayStep h, engineBus, hread]

theorem exec_engBus_write {addr : Addr} {d : Byte} {t : State} (hwrite : chipBusWrite addr d s = some t) :
    exec (.engBus (.write addr d)) s = .next t := by
  rw [exec, execEngBus, whenGranted_mayStep h, engineBus, hwrite]

end

/-- Settles O51: each is the event's own effect; for ENG-PAGE the tag's valid bit chooses. -/
theorem engineHaltGprPage : Obligations.EngineHaltGprPage := by
  intro s r v b h
  refine ⟨exec_engHalt h, ⟨_, exec_engGpr h r v, fun j hj => ?_⟩, fun hvalid => ?_, fun hinvalid => ?_⟩
  · rw [Vector.getElem_set]
    exact if_congr eq_comm rfl rfl
  · rw [exec_engPage h, if_pos hvalid]
  · rw [exec_engPage h, hinvalid, if_neg Bool.false_ne_true]

/-! ## ENG-FILL -/

/-- The bank to fill: the one that is not active if that is unlocked, else the active one if that is (R209). -/
theorem fillBank_eq_some {b : Block} {k : Bank}
    (h : ((b.bank (otherBank b.cachePage)).lock = false ∧ k = otherBank b.cachePage) ∨
      ((b.bank (otherBank b.cachePage)).lock = true ∧ (b.bank b.cachePage).lock = false ∧ k = b.cachePage)) :
    b.fillBank = some k := by
  rcases h with ⟨hother, rfl⟩ | ⟨hother, hactive, rfl⟩
  · simp [Block.fillBank, hother]
  · simp [Block.fillBank, hother, hactive]

theorem requestFill_of_fillBank {s : State} {p : BitVec 15} {k : Bank} (hmiss : s.blk.Misses p) (hk : s.blk.fillBank = some k) :
    requestFill p s = .next (s.setBlk (s.blk.startLoad k p true)) := by
  rw [requestFill, if_neg (not_pageHeld hmiss), hk]

theorem requestFill_held {s : State} {p : BitVec 15} (h : ¬ s.blk.Misses p) : requestFill p s = .fault (.enginePageHeld p) :=
  if_pos (Bool.eq_true_of_not_eq_false (mt (pageHeld_eq_false_iff s.blk p).mp h))

/-- A fill's load as the statement writes it: replacing the bank leaves the program offset alone (R206). -/
theorem startLoad_eq (b : Block) (k : Bank) (p : BitVec 15) (fill : Bool) : b.startLoad k p fill =
    { (b.setBank k { b.bank k with valid := false }) with
      cacheLoading := true
      cload := { bank := k, page := p, addr := cacheSourceAddr b.programOffset p, count := 0, fill := fill } } := by
  cases k <;> rfl

/-- Settles O52: the statement's bank is `FillBank`. -/
theorem engineFill : Obligations.EngineFill := by
  refine fun s p hstep => ⟨fun k hmiss hk => ⟨_, cacheSourceAddr_toNat s.blk.programOffset p, ?_⟩,
    fun hheld => (exec_engFill hstep p).trans (requestFill_held hheld)⟩
  rw [exec_engFill hstep, requestFill_of_fillBank hmiss (fillBank_eq_some hk), startLoad_eq]

/-! ## The run state -/

theorem scratchWrite_halt (b : Block) (i : BitVec 12) (d : Byte) : (b.scratchWrite i d).halt = b.halt := by
  obtain ⟨m, hm, _⟩ := scratchWrite_eq b i d
  rw [hm]

theorem startLoad_halt (b : Block) (k : Bank) (p : BitVec 15) (fill : Bool) : (b.startLoad k p fill).halt = b.halt :=
  setBank_halt b k _

theorem finishLoad_halt (b : Block) : b.finishLoad.halt = b.halt := setBank_halt b _ _

theorem storeLoaded_halt (b : Block) (v : Byte) : (b.storeLoaded v).halt = b.halt := setBank_halt b _ _

theorem writePreload_halt (b : Block) (d : Byte) : (b.writePreload d).halt = b.halt := by
  unfold Block.writePreload
  dsimp only
  split
  · exact startLoad_halt { b with cachePreload := d.getLsbD 0 } _ _ _
  · rfl

theorem writeLocks_halt (b : Block) (d : Byte) : (b.writeLocks d).halt = b.halt := by
  unfold Block.writeLocks
  split <;> rfl

/-- After a program-counter write the chip runs, whatever it did before (R178). -/
theorem writePc_halt (b : Block) (d : Byte) : (b.writePc d).halt = false := by
  rw [writePc_eq]
  split
  · rfl
  · next h => exact Bool.eq_false_of_not_eq_true h

theorem chipBusWrite_halt {a : Addr} {v : Byte} {s s' : State} (h : chipBusWrite a v s = some s') : s'.blk.halt = s.blk.halt := by
  rw [chipBusWrite_blk h]

theorem moveDmaByte_halt {s t : State} (h : moveDmaByte s = .next t) : t.blk.halt = s.blk.halt := by
  obtain ⟨v, s1, s2, hread, hwrite, rfl⟩ := moveDmaByte_next h
  exact (chipBusWrite_halt hwrite).trans (congrArg Block.halt (chipBusRead_blk hread))

theorem moveLoadByte_halt {s t : State} (h : moveLoadByte s = .next t) : t.blk.halt = s.blk.halt := by
  obtain ⟨v, s1, hread, rfl⟩ := moveLoadByte_next h
  exact (storeLoaded_halt s1.blk v).trans (congrArg Block.halt (chipBusRead_blk hread))

theorem engineBus_halt {acc : BusAccess} {s t : State} (h : engineBus acc s = .next t) : t.blk.halt = s.blk.halt := by
  rcases engineBus_next h with ⟨a, v, s1, _, hread, rfl⟩ | ⟨a, d, _, hwrite⟩
  · exact congrArg Block.halt ((emit_blk ..).trans (chipBusRead_blk hread))
  · exact chipBusWrite_halt hwrite

theorem syncFor_halt (s : State) (a : Access) : (s.syncFor a).blk.halt = s.blk.halt := congrArg Block.halt (syncFor_blk s a)

/-- What an instruction that completes can do to `halt`: leave it, clear it by a program-counter write, set it by a halt request or by
ENG-HALT. The last case is that of the window reads and of the window writes that store in single fields of `S`. -/
theorem exec_halt_cases {i : Instr} {s t : State} (h : exec i s = .next t) :
    t.blk.halt = s.blk.halt ∨ ((∃ a d, i = .wrPc a d) ∧ t.blk.halt = false) ∨
      (((∃ a d, i = .wrHalt a d) ∨ i = .engHalt) ∧ t.blk.halt = true) := by
  cases i with
  | wrPc a d =>
    cases h
    exact .inr (.inl ⟨⟨a, d, rfl⟩, writePc_halt _ d⟩)
  | wrHalt a d =>
    cases h
    exact .inr (.inr ⟨.inl ⟨a, d, rfl⟩, rfl⟩)
  | engHalt =>
    simp only [exec, execEngHalt] at h
    obtain ⟨_, hn⟩ := whenGranted_next.mp h
    cases hn
    exact .inr (.inr ⟨.inr rfl, rfl⟩)
  | wrScratch0000 | wrScratch0800 | wrScratchOor | wrScratch1000 | wrScratch1800 =>
    cases h
    exact .inl ((scratchWrite_halt ..).trans (syncFor_halt s _))
  | wrDmatgtH =>
    cases h
    exact .inl ((writeDmaTargetHigh_halt ..).trans (syncFor_halt s _))
  | wrCpreload =>
    cases h
    exact .inl ((writePreload_halt ..).trans (syncFor_halt s _))
  | wrCachelock =>
    cases h
    exact .inl ((writeLocks_halt ..).trans (syncFor_halt s _))
  | romRead ctx addr =>
    cases h
    exact .inl (congrArg Block.halt (romPortRead_blk ctx addr s))
  | speedQuery =>
    cases h
    exact .inl rfl
  | dmaStart | dmaDone | suspExpire =>
    obtain ⟨_, hn⟩ := whenEnabled_next.mp h
    cases hn
    exact .inl rfl
  | dmaByte =>
    obtain ⟨_, hn⟩ := whenEnabled_next.mp h
    exact .inl (moveDmaByte_halt hn)
  | cloadByte =>
    obtain ⟨_, hn⟩ := whenEnabled_next.mp h
    exact .inl (moveLoadByte_halt hn)
  | cloadDone =>
    obtain ⟨_, hn⟩ := whenEnabled_next.mp h
    cases hn
    exact .inl (finishLoad_halt s.blk)
  | engGpr =>
    simp only [exec, execEngGpr] at h
    obtain ⟨_, hn⟩ := whenGranted_next.mp h
    cases hn
    exact .inl rfl
  | engFill p =>
    obtain ⟨_, hn⟩ := whenGranted_next.mp h
    obtain ⟨k, _, _, rfl⟩ := requestFill_next hn
    exact .inl (startLoad_halt s.blk k p true)
  | engPage =>
    simp only [exec, execEngPage] at h
    obtain ⟨_, hn⟩ := whenGranted_next.mp h
    split at hn <;> cases hn
    exact .inl rfl
  | engBus =>
    obtain ⟨_, hn⟩ := whenGranted_next.mp h
    exact .inl (engineBus_halt hn)
  | _ =>
    cases h
    exact .inl (syncFor_halt s _)

/-- Only a program-counter write takes the chip from Halted to Running. -/
theorem exec_halt_cleared {i : Instr} {s t : State} (h : exec i s = .next t) (hs : s.blk.halt = true) (ht : t.blk.halt = false) :
    ∃ a d, i = .wrPc a d := by
  rcases exec_halt_cases h with hkept | ⟨hpc, _⟩ | ⟨_, hset⟩
  · simp [hs, ht] at hkept
  · exact hpc
  · simp [ht] at hset

/-- Only a halt request and ENG-HALT take the chip from Running to Halted. -/
theorem exec_halt_set {i : Instr} {s t : State} (h : exec i s = .next t) (hs : s.blk.halt = false) (ht : t.blk.halt = true) :
    (∃ a d, i = .wrHalt a d) ∨ i = .engHalt := by
  rcases exec_halt_cases h with hkept | ⟨_, hcleared⟩ | ⟨hhalt, _⟩
  · simp [hs, ht] at hkept
  · simp [ht] at hcleared
  · exact hhalt

/-- No instruction that completes leaves stuck an Engine that was not. -/
theorem exec_engineStuck_of_free {i : Instr} {s t : State} (h : exec i s = .next t) (hs : s.engineStuck = false) :
    t.engineStuck = false := by
  rcases engineStuck_of_next h with hkept | ⟨a, d, rfl, _⟩
  · exact hkept.trans hs
  · simp only [exec, execWrCachelock_eq] at h
    cases h
    simp [hs]

/-! ## The step -/

/-- Whether or not it re-initialises the block, a host-system reset does not start the chip (spec/70_reset_and_hazards.md R282). -/
theorem systemReset_halt (d : ResetDraw) {s : State} (h : s.blk.halt = true) : (systemReset d s).blk.halt = true := by
  unfold systemReset
  split
  · rfl
  · exact h

theorem systemReset_engineStuck (d : ResetDraw) {s : State} (h : s.engineStuck = false) : (systemReset d s).engineStuck = false := by
  unfold systemReset
  split
  · rfl
  · exact h

/-- Settles O56: what a reset, an instruction that completes and one that is passed over can do to `halt` and `engineStuck`. -/
theorem runStateTransitions : Obligations.RunStateTransitions := by
  intro s t h
  rcases step_next h with ⟨_, rfl⟩ | ⟨d, rest, hs, rfl⟩ | ⟨x, i, rest, hs, hd, hn | ⟨f, hf, rfl⟩⟩
  · refine ⟨?_, ?_, ?_, ?_⟩ <;> intro hbefore hafter <;> simp [hbefore] at hafter
  · have hreset : s.TakesReset := ⟨d, rest, hs⟩
    refine ⟨fun hhalt hrun => ?_, fun _ _ => .inr (.inr hreset), fun hfree hstuck => ?_, fun _ _ => .inr hreset⟩
    · simp [systemReset_halt d (s := { s with inbox := rest }) hhalt] at hrun
    · simp [systemReset_engineStuck d (s := { s with inbox := rest }) hfree] at hstuck
  · have htakes : s.Takes i := ⟨x, rest, hs, hd⟩
    refine ⟨fun hhalt hrun => ?_, fun hrun hhalt => ?_, fun hfree hstuck => ?_, fun hstuck hfree => .inl ?_⟩
    · obtain ⟨a, d, rfl⟩ := exec_halt_cleared hn hhalt hrun
      exact ⟨a, d, htakes⟩
    · rcases exec_halt_set hn hrun hhalt with ⟨a, d, rfl⟩ | rfl
      · exact .inl ⟨a, d, htakes⟩
      · exact .inr (.inl htakes)
    · simp [exec_engineStuck_of_free hn hfree] at hstuck
    · rcases engineStuck_of_next hn with hkept | ⟨a, d, rfl, hhalt, hlock⟩
      · simp [hstuck, hfree] at hkept
      · rw [lockBits_eq] at hlock
        exact ⟨a, d, htakes, hhalt, of_decide_eq_false hlock⟩
  · refine ⟨fun hhalt hrun => ?_, fun hrun hhalt => ?_, fun hfree hstuck => ?_, fun hstuck hfree => ?_⟩
    · simp [hhalt] at hrun
    · simp [hrun] at hhalt
    · obtain ⟨p, rfl, hgrant, hheld, hnone⟩ := sticks_of_fault hf (by simpa [hfree] using hstuck)
      obtain ⟨h0, h1⟩ := (fillBank_none s.blk).mp hnone
      exact ⟨p, ⟨x, rest, hs, hd⟩, (engineGrant_iff s.blk).mp hgrant, (pageHeld_eq_false_iff s.blk p).mp hheld, h0, h1⟩
    · simp [hstuck] at hfree

end Sys2Proof.Machine

namespace Sys2Proof

open Machine

/-- Settles O54: outside control space the access is made, and the event does nothing more but hand a byte read to the Engine. It
stands outside `Machine`, where its name is the model's `engineBus`. -/
theorem engineBus : Obligations.EngineBus := by
  intro s addr d hwf hstep haddr
  obtain ⟨v, t, hread, hreads⟩ := chipBusRead_ok (s := s) haddr
  obtain ⟨u, hwrite, hwrites⟩ := chipBusWrite_ok (v := d) hwf haddr
  exact ⟨⟨t, v, hreads, exec_engBus_read hstep hread⟩, ⟨u, hwrites, exec_engBus_write hstep hwrite⟩⟩

end Sys2Proof

/-! The Host's and the Debugger's transactions always complete (spec/60_exceptions.md R260): each takes nothing from the schedule and
logs no stuck step. -/

namespace Sys2Proof.Machine

/-- The schedule of `t` is that of `s`, and the trace goes on from `s` to `t` by events none of which marks a step as stuck. -/
def State.GoesOnTo (s t : State) : Prop := t.inbox = s.inbox ∧ ∃ ev, t.trace = s.trace ++ ev ∧ ∀ f, BusEvent.stuck f ∉ ev

theorem State.GoesOnTo.trans {s t u : State} (h : s.GoesOnTo t) (h' : t.GoesOnTo u) : s.GoesOnTo u := by
  obtain ⟨hinbox, ev, htrace, hev⟩ := h
  obtain ⟨hinbox', ev', htrace', hev'⟩ := h'
  exact ⟨hinbox'.trans hinbox, ev ++ ev', by rw [htrace', htrace, List.append_assoc],
    fun f hf => (List.mem_append.1 hf).elim (hev f) (hev' f)⟩

theorem emit_goesOn (s : State) {e : BusEvent} (he : ∀ f, e ≠ .stuck f) : s.GoesOnTo (s.emit e) :=
  ⟨rfl, [e], rfl, fun f hf => he f (List.mem_singleton.1 hf).symm⟩

/-! ## The window -/

theorem stuck_notMem_syncEvents (a : Access) (f : Fault) : BusEvent.stuck f ∉ syncEvents a := by
  cases hdbg : a.dbg <;> simp [syncEvents, hdbg]

theorem afterRead_goesOn (s : State) (a : Access) (d : Byte) : s.GoesOnTo (s.afterRead a d) :=
  ⟨rfl, _, rfl, fun f => by simp [stuck_notMem_syncEvents]⟩

/-- Whatever a write does to `S` and to a stuck Engine, all it logs is its `Sync`. -/
theorem afterWrite_goesOn (s : State) (a : Access) (b : Block) (e : Bool) :
    s.GoesOnTo { s.afterWrite a b with engineStuck := e } :=
  ⟨rfl, _, rfl, stuck_notMem_syncEvents a⟩

theorem exec_window_goesOn {i : Instr} {a : Access} (h : i.access? = some a) (s : State) :
    ∃ t, exec i s = .next t ∧ s.GoesOnTo t := by
  rcases exec_window h with ⟨f, hread⟩ | ⟨f, hwrite⟩ | ⟨d, rfl⟩
  · exact ⟨_, (hread s).trans (windowRead_eq a f s), afterRead_goesOn s a _⟩
  · exact ⟨_, (hwrite s).trans (windowWrite_eq a f s), afterWrite_goesOn s a _ s.engineStuck⟩
  · exact ⟨_, execWrCachelock_eq a d s, afterWrite_goesOn s a _ _⟩

/-! ## The ROM port -/

theorem romPassThrough_goesOn (s : State) (addr : Addr) : s.GoesOnTo (romPassThrough addr s) := by
  have hcart : s.GoesOnTo (s.cartTaken addr) := ⟨cartTaken_inbox s addr, _, cartTaken_trace s addr, by simp⟩
  exact hcart.trans (emit_goesOn _ (by simp))

theorem romPortRead_goesOn (ctx : Ctx) (addr : Addr) (s : State) : s.GoesOnTo (romPortRead ctx addr s) := by
  cases ctx with
  | chip => exact romPassThrough_goesOn s addr
  | host =>
    have hsync : s.GoesOnTo (s.emit (.sync .host)) := emit_goesOn s (by simp)
    simp only [romPortRead]
    split
    · exact hsync.trans (romPassThrough_goesOn _ addr)
    · split <;> exact hsync.trans (emit_goesOn _ (by simp))

/-! ## The step -/

theorem HostTransaction.exec_goesOn {i : Instr} (h : HostTransaction i) (s : State) : ∃ t, exec i s = .next t ∧ s.GoesOnTo t := by
  rcases h with ⟨a, ha⟩ | ⟨ctx, addr, rfl⟩ | ⟨addr, rfl⟩
  · exact exec_window_goesOn ha s
  · exact ⟨_, rfl, romPortRead_goesOn ctx addr s⟩
  · exact ⟨_, rfl, emit_goesOn s (by simp)⟩

/-- Settles O39: the transaction completes at the state without its entry, so the step takes it and passes nothing over. -/
theorem hostTransactionsComplete : Obligations.HostTransactionsComplete := by
  intro s x rest i hs hd hi
  obtain ⟨t, hexec, hinbox, ev, htrace, hev⟩ := hi.exec_goesOn { s with inbox := rest }
  have hstep : step s = .next t := by
    rw [step_txn hs hd, hexec]
    rfl
  exact ⟨t, ev, hstep, hexec, hinbox, htrace, hev⟩

end Sys2Proof.Machine

/-! Initialisation and the host-system reset (spec/70_reset_and_hazards.md R280 to R282): an initialisation gives exactly the states
with R46's fixed fields, and a reset is an initialisation or nothing. -/

namespace Sys2Proof.Machine

/-! ## The states an initialisation gives -/

theorem resetDraw_initial (d : ResetDraw) : (resetDraw d).Initial where
  halt := rfl
  dma := ⟨rfl, rfl⟩
  loading := rfl
  suspend := ⟨rfl, rfl⟩
  cachePage := rfl
  cachePreload := rfl
  locks := ⟨rfl, rfl⟩
  speeds := ⟨rfl, rfl⟩
  flags := ⟨rfl, rfl⟩
  tags := ⟨rfl, rfl⟩

/-- The draw that gives a state's own values to the fields R46 leaves free. -/
def Block.ownDraw (b : Block) : ResetDraw :=
  { dmaSource := b.dmaSource, dmaLength := b.dmaLength, dmaTarget := b.dmaTarget, programOffset := b.programOffset,
    pageNumber := b.pageNumber, programCounter := b.programCounter, vector := b.vector, gpr := b.gpr, scratch := b.scratch,
    pcFull := b.pcFull, dmaLatch := b.dmaLatch, dmaCur := b.dmaCur, cload := b.cload, cacheMem0 := b.bank0.mem,
    cacheMem1 := b.bank1.mem, tagPage0 := b.bank0.page, tagPage1 := b.bank1.page }

/-- An unlocked and invalid bank in canonical form is drawn by its own contents and page. -/
theorem drawnBank_self {x : BankState} (hlock : x.lock = false) (hvalid : x.valid = false) (hmem : Memory.wf 512 x.mem) :
    drawnBank x.mem x.page = x := by
  have hcells : Memory.ofCells Config.cachePageBytes x.mem = x.mem := Memory.ofCells_self hmem
  cases x
  simp_all [drawnBank, BankState.reset]

/-- A state with R46's fixed values is drawn by its own values: no free field is out of an initialisation's reach. -/
theorem resetDraw_ownDraw {b : Block} (h : b.Initial) (hscratch : Memory.wf 3072 b.scratch) (hmem0 : Memory.wf 512 b.bank0.mem)
    (hmem1 : Memory.wf 512 b.bank1.mem) : resetDraw b.ownDraw = b := by
  obtain ⟨hhalt, ⟨hpending, hactive⟩, hloading, ⟨hsuspend, hcycles⟩, hpage, hpreload, ⟨hlock0, hlock1⟩, ⟨hram, hrom⟩, ⟨h51, h52⟩,
    ⟨htag0, htag1⟩⟩ := h
  have hcells : Memory.ofCells Config.scratchSize b.scratch = b.scratch := Memory.ofCells_self hscratch
  have hbank0 := drawnBank_self hlock0 htag0 hmem0
  have hbank1 := drawnBank_self hlock1 htag1 hmem1
  have hcycles' : b.suspendCycles = 0 := BitVec.eq_of_toNat_eq hcycles
  have hram' : b.ramSpeed = 0 := BitVec.eq_of_toNat_eq hram
  have hrom' : b.romSpeed = 0 := BitVec.eq_of_toNat_eq hrom
  cases b
  simp_all [resetDraw, Block.ownDraw, Block.reset]

/-- Settles O7: an initialisation fixes R46's fields, and a state that has them is drawn by its own values. -/
theorem initialisationReachesEveryDraw : Obligations.InitialisationReachesEveryDraw :=
  ⟨resetDraw_initial, fun b h hscratch hmem0 hmem1 => ⟨b.ownDraw, resetDraw_ownDraw h hscratch hmem0 hmem1⟩⟩

/-! ## The status byte after an initialisation -/

/-- Of the status signals of an initial state, `halt` alone is set (spec/10_state.md R42). -/
theorem statusNumber_of_initial {b : Block} (h : b.Initial) : statusNumber b = 2 := by
  obtain ⟨hpending, hactive⟩ := h.dma
  simp [statusNumber, h.halt, hpending, hactive, h.loading, h.suspend.1]

/-- Whichever instruction a read of a status alias decodes to, it returns `status(S)`. -/
theorem readsNumber_statusAlias (a : Access) (s : State) {o : Nat} (hlow : 0x1F53 ≤ o) (hhigh : o ≤ 0x1F5F) :
    ReadsNumber o (decodeRead a (BitVec.ofNat 13 o)) a s (statusNumber s.blk) := by
  interval_cases o <;> exact readsNumber_status rfl rfl

/-- Settles O8: every alias returns `status(S)`, which is 2 in an initial state. -/
theorem statusAfterInitialisation : Obligations.StatusAfterInitialisation := by
  intro a s d o _ hlow hhigh
  have hread := readsNumber_statusAlias a { s with blk := resetDraw d } hlow hhigh
  rw [statusNumber_of_initial (resetDraw_initial d)] at hread
  exact ⟨_, hread⟩

/-! ## The host-system reset -/

theorem step_systemReset {s : State} {d : ResetDraw} {rest : List Entry} (hs : s.inbox = .systemReset d :: rest) :
    step s = .next (systemReset d { s with inbox := rest }) := by
  simp [step, takeEntry, hs]

theorem systemReset_reinit (h : Config.systemResetReinit = true) (d : ResetDraw) (s : State) :
    systemReset d s = { s with blk := resetDraw d, engineStuck := false } := if_pos h

theorem systemReset_ignored (h : Config.systemResetReinit = false) (d : ResetDraw) (s : State) : systemReset d s = s := by
  simp [systemReset, h]

/-- Settles O6: the step is the scheduled reset, which the open parameter makes an initialisation or nothing. -/
theorem systemResetStep : Obligations.SystemResetStep := by
  intro s d rest hs
  cases h : Config.systemResetReinit with
  | true =>
    refine ⟨resetDraw d, false, ?_, .inl ⟨rfl, rfl, resetDraw_initial d, rfl⟩⟩
    rw [step_systemReset hs, systemReset_reinit h]
  | false =>
    refine ⟨s.blk, s.engineStuck, ?_, .inr ⟨rfl, rfl, rfl⟩⟩
    rw [step_systemReset hs, systemReset_ignored h]

/-! ## The state after reset -/

/-- The block after reset is the initial state of a draw, its own. -/
theorem resetDraw_ownDraw_reset : resetDraw Block.reset.ownDraw = Block.reset := rfl

/-- Settles O9: the block after reset is the initial state of its own draw, and around it nothing is stuck, scheduled or traced. -/
theorem resetState : Obligations.ResetState :=
  ⟨resetDraw_initial Block.reset.ownDraw, ⟨Block.reset.ownDraw, resetDraw_ownDraw_reset⟩, rfl, rfl, rfl, rfl⟩

/-- Settles O10: the invariant of every initial state, of which the block after reset is one; no Engine is stuck there. -/
theorem invariantAtReset : Obligations.InvariantAtReset :=
  ⟨⟨resetDraw_inv Block.reset.ownDraw, fun hstuck => by cases hstuck⟩, resetDraw_inv⟩

end Sys2Proof.Machine
